-- ==== Sys2Proof/Word.lean ====
section
/-! DEFINITION. Word.lean: the plain words of the VS4: bytes, ports, keys, handles, cells, colours, glyph patterns and
rectangles. Operations on them that a repair might have to mend stand in Machine/. -/

namespace Sys2Proof

/-- A byte of a host link transaction, of the profile image or of a pattern row. -/
abbrev Byte := BitVec 8

/-- Ports are named port 0 to port 3 (00_scope 0.5). -/
abbrev Port := Fin 4

/-- Keys are named key 0 to key 7 (00_scope 0.5). -/
abbrev KeyId := Fin 8

/-- The four ports in port order. -/
def allPorts : List Port := [0, 1, 2, 3]

/-- The eight keys in key order. -/
def allKeys : List KeyId := [0, 1, 2, 3, 4, 5, 6, 7]

/-- A window handle, the pair (slot, generation) (00_scope 0.5, R19). A host may name any slot byte; slots 1 to 24 exist. -/
structure Handle where
  slot : Nat
  gen  : Byte
  deriving DecidableEq, Repr

/-- A cell value: the five fields of Table 1-1 (R1). -/
structure Cell where
  glyph   : Nat
  fg      : Fin 16
  bg      : Fin 16
  blink   : Bool
  inverse : Bool
  deriving DecidableEq, Repr

/-- The cell every strip position holds after device reset (R9). -/
def Cell.blank : Cell := ⟨0, 0, 0, false, false⟩

/-- A palette entry: red, green and blue, eight bits each (R180, Table 12-1). -/
structure Colour where
  r : Byte
  g : Byte
  b : Byte
  deriving DecidableEq, Repr, Inhabited

/-- A glyph pattern: 16 pixel rows from the top, the leftmost pixel in the most significant bit (R4, R174). -/
abbrev Pattern := Vector Byte 16

/-- The blank pattern: all 128 pixels clear (R4). -/
def blankPattern : Pattern := Vector.replicate 16 0

/-- A pixel position, counted from 0 at the top left of the screen (00_scope 0.5). -/
structure Pixel where
  x : Nat
  y : Nat
  deriving DecidableEq, Repr

/-- A rectangle: its top-left cell, its width and its height in cells (00_scope 0.5). -/
structure Rect where
  col : Nat
  row : Nat
  w   : Nat
  h   : Nat
  deriving DecidableEq, Repr

end Sys2Proof
end

