-- ==== Sys2Proof/Config.lean ====
section
/-! DEFINITION. Config.lean: the part's fixed sizes, and the values the manual leaves open, each a constant with no body so
that no statement can lean on one. -/

namespace Sys2Proof.Config

/-- The pool holds 1024 strips (R9). -/
def strips : Nat := 1024

/-- The window table has 24 slots, numbered 1 to 24 (R16). -/
def slots : Nat := 24

/-- A slice does items until the next would bring its count of cells above 64 (R52). -/
def sliceCells : Nat := 64

/-- A command queue holds at most 8 commands (R44). -/
def queueCommands : Nat := 8

/-- The payloads of a command queue total at most 1024 bytes (R44). -/
def queueBytes : Nat := 1024

/-- A frame's payload is at most 512 bytes (R167). -/
def maxPayload : Nat := 512

/-- At most 8 urgent slices are granted in a row while a NORMAL port waits (R49). -/
def urgentLimit : Nat := 8

/-- An event queue holds at most 16 records (R122). -/
def eventPlaces : Nat := 16

/-- At most 14 records of an event queue are not FAILED records (R122). -/
def openEventPlaces : Nat := 14

/-- A READ_EVENTS reply carries at most 8 records (R129). -/
def eventsPerReply : Nat := 8

/-- A key level is accepted when it has been read 20 times in a row (R147). -/
def keyAgreement : Nat := 20

/-- FREE VALUE (log 4): the patterns of the built-in set beyond what R2 and Table 1-2 state. -/
opaque builtinPattern : Nat → Pattern

/-- FREE VALUE (log 4): which of the two checkers glyph 177 is; R2 says only that alternate pixels are set. -/
opaque checkerFirst : Bool

/-- FREE VALUE (log 4): whether the centred dot of glyph 127 lies left of the middle of its cell; 8 columns have two middle ones. -/
opaque dotLeft : Bool

/-- FREE VALUE (log 4): whether the centred dot of glyph 127 lies above the middle of its cell; 16 rows have two middle ones. -/
opaque dotUpper : Bool

/-- FREE VALUE (log 5): the colour components behind the colour names of Table 12-2. -/
opaque defaultPalette : Vector Colour 16

/-- FREE VALUE (log 6): whether a SET_WINDOW_MODES whose presence byte has bit 7 set is refused; R174 gives bits 0 to 6. -/
opaque presenceBit7Refused : Bool

/-- FREE VALUE (log 7): the generation byte of an absent window handle; Table 11-5 gives only its slot byte. -/
opaque absentGeneration : Byte

/-- FREE VALUE (log 7): bits 1 to 7 of byte 14 of the STATUS body; Table 11-6 gives only bit 0. -/
opaque statusSpareBits : BitVec 7

/-- FREE VALUE (log 7): bits 4 to 7 of the flags byte of a DONE or FAILED record; Table 11-5 gives bits 0 to 3. -/
opaque reportSpareBits : BitVec 4

end Sys2Proof.Config
end

