-- ==== Sys2Proof/Syntax.lean ====
section
/-! DEFINITION. Syntax.lean: the commands of the VS4, one constructor of Instr per row of spec/opcode_table.json, with the
kinds of queued command that COMMAND_ADMISSION carries and the slice rows serve. -/

namespace Sys2Proof

/-- The kinds of queued command, in the code order of Table 11-3. -/
inductive CommandKind where
  | createWindow | destroyWindow | placeWindow | showWindow | hideWindow | raiseWindow | lowerWindow | setBand
  | setWindowModes | grantRead | revokeRead | queryWindow
  | setPen | setCursor | writeText | putCells | fillRect | copyRect | shiftRect | readCells | loadGlyphs
  | requestFocus | releaseFocus | toneStart | toneStop | setBrightness | frameMark
  deriving DecidableEq, Repr

/-- One reading of the touch layer: no contact, or contact with a raw x and a raw y, each 0 to 4095 (R134). -/
abbrev TouchReading := Option (BitVec 12 × BitVec 12)

/-- The part of a FETCH transaction that a step covers (R171). The reply is fixed at the lead byte's end and consumed when
chip select rises, and a port may enter CLOSING between the two; `whole` is both with nothing between. The number is how
many whole bytes were shifted out after the lead byte. -/
inductive FetchPart where
  | whole (shifted : Nat)
  | lead
  | rise (shifted : Nat)
  deriving DecidableEq, Repr

/-- The commands and events of the part (spec/opcode_table.json), each one whole step. -/
inductive Instr where
  /-- DEVICE_RESET: power-on, or RESET held low (R178). -/
  | deviceReset
  /-- DEVICE_RESET_END: RESET rises with the supply at its working level (R178). -/
  | deviceResetEnd
  /-- PROFILE_LOAD_END: the load ends (R182). `image` is what the configuration memory held, none if it did not answer;
  `first` is the touch sample taken in this step (R134). -/
  | profileLoadEnd (image : Option (List Byte)) (first : TouchReading)
  /-- NAK_FRAMING: a SEND judged by the link checks (R168); `bytes` are the whole bytes received after the lead byte. -/
  | nakFraming (p : Port) (bytes : List Byte)
  /-- FETCH: a FETCH transaction, or its beginning or end (R171). -/
  | fetch (p : Port) (part : FetchPart)
  /-- ATTACH: an ATTACH frame that passed the link checks (R105). -/
  | attach (p : Port) (tag : Byte)
  /-- RENEW: a RENEW frame that passed the link checks (R109, R113). -/
  | renew (p : Port) (tag : Byte)
  /-- DETACH: a DETACH frame that passed the link checks (R115). -/
  | detach (p : Port) (tag : Byte)
  /-- READ_EVENTS: a READ_EVENTS frame that passed the link checks (R129). -/
  | readEvents (p : Port) (tag : Byte)
  /-- STATUS: a STATUS frame that passed the link checks (R176). -/
  | status (p : Port) (tag : Byte)
  /-- ABORT: an ABORT frame that passed the link checks (R62, R177). -/
  | abort (p : Port) (tag : Byte)
  /-- COMMAND_ADMISSION: a queued-command frame that passed the link checks (R172). -/
  | commandAdmission (p : Port) (kind : CommandKind) (flags tag : Byte) (payload : List Byte)
  /-- CREATE_WINDOW: the step of port p's slice in flight, whose head is a CREATE_WINDOW (R28). -/
  | createWindow (p : Port)
  /-- DESTROY_WINDOW: the step of port p's slice in flight (R30). -/
  | destroyWindow (p : Port)
  /-- PLACE_WINDOW: the step of port p's slice in flight (R31). -/
  | placeWindow (p : Port)
  /-- SHOW_WINDOW: the step of port p's slice in flight (R32). -/
  | showWindow (p : Port)
  /-- HIDE_WINDOW: the step of port p's slice in flight (R33). -/
  | hideWindow (p : Port)
  /-- RAISE_WINDOW: the step of port p's slice in flight (R34). -/
  | raiseWindow (p : Port)
  /-- LOWER_WINDOW: the step of port p's slice in flight (R34). -/
  | lowerWindow (p : Port)
  /-- SET_BAND: the step of port p's slice in flight (R35). -/
  | setBand (p : Port)
  /-- SET_WINDOW_MODES: the step of port p's slice in flight (R36). -/
  | setWindowModes (p : Port)
  /-- GRANT_READ: the step of port p's slice in flight (R37). -/
  | grantRead (p : Port)
  /-- REVOKE_READ: the step of port p's slice in flight (R38). -/
  | revokeRead (p : Port)
  /-- QUERY_WINDOW: the step of port p's slice in flight (R39). -/
  | queryWindow (p : Port)
  /-- SET_PEN: the step of port p's slice in flight (R69). -/
  | setPen (p : Port)
  /-- SET_CURSOR: the step of port p's slice in flight (R70). -/
  | setCursor (p : Port)
  /-- WRITE_TEXT: the step of port p's slice in flight, one of the command's slices (R71). -/
  | writeText (p : Port)
  /-- PUT_CELLS: the step of port p's slice in flight, one of the command's slices (R76). -/
  | putCells (p : Port)
  /-- FILL_RECT: the step of port p's slice in flight, one of the command's slices (R77). -/
  | fillRect (p : Port)
  /-- COPY_RECT: the step of port p's slice in flight, one of the command's slices (R78). -/
  | copyRect (p : Port)
  /-- SHIFT_RECT: the step of port p's slice in flight, one of the command's slices (R83). -/
  | shiftRect (p : Port)
  /-- READ_CELLS: the step of port p's slice in flight (R84). -/
  | readCells (p : Port)
  /-- LOAD_GLYPHS: the step of port p's slice in flight (R85). -/
  | loadGlyphs (p : Port)
  /-- REQUEST_FOCUS: the step of port p's slice in flight (R155). -/
  | requestFocus (p : Port)
  /-- RELEASE_FOCUS: the step of port p's slice in flight (R156). -/
  | releaseFocus (p : Port)
  /-- TONE_START: the step of port p's slice in flight (R160). -/
  | toneStart (p : Port)
  /-- TONE_STOP: the step of port p's slice in flight (R161). -/
  | toneStop (p : Port)
  /-- SET_BRIGHTNESS: the step of port p's slice in flight (R98). -/
  | setBrightness (p : Port)
  /-- FRAME_MARK: the step of port p's slice in flight, which parks the head (R58). -/
  | frameMark (p : Port)
  /-- FRAME_START: the periodic frame start (R90). -/
  | frameStart
  /-- TOUCH_SAMPLE: one sample of the touch layer (R134). -/
  | touchSample (reading : TouchReading)
  /-- PRESS_REPORT: the contact sample that makes a press (R136, R141), with its raw x and raw y. -/
  | pressReport (rawX rawY : BitVec 12)
  /-- RELEASE_REPORT: the no-contact sample that makes a release (R138, R143). -/
  | releaseReport
  /-- KEY_READING: one reading of one key input (R147); `pressed` is the level read. -/
  | keyReading (k : KeyId) (pressed : Bool)
  /-- DOWN_REPORT: the reading at which a key is accepted DOWN (R147, R149). -/
  | downReport (k : KeyId)
  /-- REPEAT_REPORT: a key's repeat timer has run out (R148, R150). -/
  | repeatReport (k : KeyId)
  /-- UP_REPORT: the reading at which a key is accepted UP (R147, R150). -/
  | upReport (k : KeyId)
  /-- LEASE_WARNING: a port's lease remaining has fallen to half (R108). -/
  | leaseWarning (p : Port)
  /-- LEASE_EXPIRY: a port's lease remaining has reached 0 (R110). -/
  | leaseExpiry (p : Port)
  /-- GRACE_EXPIRY: a port's grace remaining has reached 0 (R112). -/
  | graceExpiry (p : Port)
  /-- TEARDOWN_REMOVAL: the topmost remaining window of a closing port is removed (R42). -/
  | teardownRemoval (p : Port)
  /-- TONE_EXPIRY: a port's tone request has reached its end time (R162). -/
  | toneExpiry (p : Port)
  /-- TONE_PHASE_CHANGE: the sounding request changes phase (R159). -/
  | tonePhaseChange
  /-- SCAN_ROW_FETCH: the compositor fetches and draws the next screen row of the scan (R92). -/
  | scanRowFetch
  /-- IGNORED_TRANSACTION: the whole bytes of a transaction whose first, the lead byte, is neither that of a SEND nor that of a
  FETCH, or that ends before a whole lead byte has arrived (R166). -/
  | ignoredTransaction (p : Port) (bytes : List Byte)
  deriving DecidableEq, Repr

end Sys2Proof
end

