-- ==== Sys2Proof/WellFormed.lean ====
section
/-! DEFINITION. WellFormed.lean: what an operand of a command must obey beyond its type. -/

namespace Sys2Proof

/-- The operands are ones the row can carry. A queued command's frame passed the length check (R168), and the lead byte of
an ignored transaction is neither 6Eh nor 9Bh (R166). Every other operand is bounded by its type. -/
def Instr.wellFormed : Instr → Bool
  | .commandAdmission _ _ _ _ payload => payload.length ≤ Config.maxPayload
  | .ignoredTransaction _ bytes => bytes.head? != some 0x6E#8 && bytes.head? != some 0x9B#8
  | _ => true

end Sys2Proof
end

