-- ==== Sys2Proof/Decode.lean ====
section
/-! DEFINITION. Decode.lean: the commands that words of spec/opcode_table.json spell. The table gives no row any bits (the
part is driven by events and by frames of bytes), so no word spells a command. The frames of the host links are judged and
read in Machine/Encoding.lean and Machine/Operands.lean. -/

namespace Sys2Proof

/-- No row of the table gives bits, so every word spells no command. -/
def decodeTableWord (_nbits _w : Nat) : Option Instr := none

end Sys2Proof
end

