-- ==== Sys2Proof/Machine/State.lean ====
section
/-! DEFINITION. Machine/State.lean: the state of the VS4 as plain data, its reset value, and the reasons a step could stop. -/

namespace Sys2Proof.Machine

/-- The manual names no fault: every transaction is answered and every event has an effect. No meaning raises one. -/
inductive Fault where
  deriving DecidableEq, Repr

/-- The reasons a command could be refused. -/
inductive Refusal where
  /-- Raised by exec's arm of a command that has no meaning yet; safe. No arm raises it: every row has its meaning. -/
  | notModelled (mnemonic : String)
  deriving DecidableEq, Repr

/-! ## Names of values -/

/-- Bands, ordered BASE < ALERT < CRITICAL (00_scope 0.5). -/
inductive Band where | base | alert | critical
  deriving DecidableEq, Repr

/-- Touch modes (Table 2-1). -/
inductive TouchMode where | take | block | pass
  deriving DecidableEq, Repr

/-- Lapse policies (Table 2-1). -/
inductive LapsePolicy where | keep | hide | mark
  deriving DecidableEq, Repr

/-- Exposure classes (R24). -/
inductive Exposure where | full | part | none
  deriving DecidableEq, Repr

/-- Renderings of a composed-shown window (R22). -/
inductive Rendering where | normal | mark
  deriving DecidableEq, Repr

/-- Port states (R103), in the code order of chapter 11. -/
inductive PortState where | disabled | detached | live | lapsed | closing
  deriving DecidableEq, Repr

/-- The device state (R178). `held` stands for the time in which RESET is low or the supply is not yet at its level. -/
inductive DeviceState where | held | starting | ready
  deriving DecidableEq, Repr

/-- Key routing modes (Table 9-1). -/
inductive Routing where
  | focus
  | port (p : Port)
  | all
  | silence
  | none
  deriving DecidableEq, Repr

/-- Chain outcomes (R56). -/
inductive ChainOutcome where | none | ok | failed
  deriving DecidableEq, Repr

/-- Completion statuses, in the order of Table 3-4. -/
inductive Status where
  | ok | noWindow | notOwner | notPermitted | quota | noSpace | noSlot | badGeometry | badArg | denied | sourceLost
  | aborted | skipped
  deriving DecidableEq, Repr

/-- Reasons of TOUCH_CANCEL (Table 7-1). -/
inductive CancelReason where | removed | lapsed
  deriving DecidableEq, Repr

/-- Reasons of FOCUS_LOST (Table 7-1). -/
inductive FocusReason where | hidden | removed | modes | lapsed | released | moved
  deriving DecidableEq, Repr

/-- Reasons of TONE_ENDED (Table 7-1). -/
inductive ToneReason where | elapsed | stopped | replaced | silenced | lapsed
  deriving DecidableEq, Repr

/-- Tone patterns (Table 10-1). -/
inductive TonePattern where | steady | pulsed | chirp
  deriving DecidableEq, Repr

/-- Tone pitches: LOW is 2.4 kHz, HIGH is 3.2 kHz (Table 10-1). -/
inductive Pitch where | low | high
  deriving DecidableEq, Repr

/-- Head states (R45), with EMPTY for an empty queue (R176), in the code order of Table 11-6. -/
inductive HeadState where | empty | waiting | inFlight | inProgress | parked
  deriving DecidableEq, Repr

/-- NAK reasons, in the code order of Table 11-2. -/
inductive NakReason where | framing | check | kind | length | starting | disabled | state | busy | full
  deriving DecidableEq, Repr

/-! ## The profile -/

/-- The per-port fields of the profile (Table 12-1); the lease and grace periods are held in milliseconds. -/
structure PortProfile where
  enabled         : Bool
  maxBand         : Band
  windowQuota     : Nat
  stripQuota      : Nat
  urgentPermitted : Bool
  leasePeriod     : Nat
  gracePeriod     : Nat
  deriving DecidableEq, Repr

/-- The panel profile (Table 12-1); the repeat delay and interval are held in milliseconds. -/
structure Profile where
  gridCols          : Nat
  gridRows          : Nat
  palette           : Vector Colour 16
  deskCell          : Cell
  lapseCell         : Cell
  defaultBrightness : Nat
  criticalFloor     : Nat
  touchEnabled      : Bool
  offsetX           : Int
  offsetY           : Int
  gainX             : Nat
  gainY             : Nat
  moveThreshold     : Nat
  routing           : Vector Routing 8
  repeatEnabled     : Vector Bool 8
  repeatDelay       : Nat
  repeatInterval    : Nat
  ports             : Vector PortProfile 4
  deriving DecidableEq, Repr

/-! ## Surfaces and windows -/

/-- A strip: 16 cells (R7). -/
abbrev Strip := Vector Cell 16

/-- The content of a strip after device reset (R9). -/
def blankStrip : Strip := Vector.replicate 16 Cell.blank

/-- The contents of the strip pool by strip number, strictly rising, no entry equal to the blank strip (see Memory.wf). -/
abbrev Memory := List (Nat × Strip)

/-- A window record (Table 2-1). The surface has `sc` columns and `sr` rows; `stripMap` lists its strips (R7). -/
structure Window where
  handle      : Handle
  owner       : Port
  band        : Band
  shown       : Bool
  view        : Rect
  sc          : Nat
  sr          : Nat
  offCol      : Nat
  offRow      : Nat
  stripMap    : List Nat
  curCol      : Nat
  curRow      : Nat
  pen         : Cell
  clear       : Cell
  wrap        : Bool
  autoscroll  : Bool
  cursorShown : Bool
  touchMode   : TouchMode
  keyEligible : Bool
  lapsePolicy : LapsePolicy
  grants      : List Port
  exposure    : Exposure
  visible     : Nat
  deriving DecidableEq, Repr

/-! ## Commands, records and replies -/

/-- A queued command (Table 3-1); its progress and stop mark are kept with its port, for the head only. -/
structure QCmd where
  kind    : CommandKind
  tag     : Byte
  report  : Bool
  urgent  : Bool
  chain   : Bool
  payload : List Byte
  deriving DecidableEq, Repr

/-- The head's progress record (R46). The next position of a copy holds its direction (R79); that of a WRITE_TEXT holds
whether a line advance is owed, whether the discarding state holds and whether its overflow mark is written (R75). -/
structure Progress where
  started       : Bool
  next          : Nat
  cellsDone     : Nat
  backward      : Bool
  owed          : Bool
  discarding    : Bool
  overflowDone  : Bool
  deriving DecidableEq, Repr

/-- The progress record of a command that has just become head (R46). -/
def Progress.fresh : Progress := ⟨false, 0, 0, false, false, false, false⟩

/-- The result part of a report (R57). A queried window is held whole; only the fields of R39 are ever sent of it. -/
inductive ResultPart where
  | none
  | handle (h : Handle)
  | window (w : Window)
  | cells (cs : List Cell)
  | frame (n : BitVec 16)
  deriving DecidableEq, Repr

/-- The fields of a DONE or FAILED record (R57). -/
structure Report where
  tag       : Byte
  kind      : CommandKind
  status    : Status
  report    : Bool
  urgent    : Bool
  chain     : Bool
  cellsDone : Option Nat
  result    : ResultPart
  deriving DecidableEq, Repr

/-- The kinds of event record with their further fields (Table 7-1). -/
inductive EventBody where
  | touchPress (at_ : Pixel)
  | touchMove (at_ : Pixel)
  | touchRelease (at_ : Pixel)
  | touchCancel (reason : CancelReason)
  | keyDown (k : KeyId)
  | keyRepeat (k : KeyId)
  | keyUp (k : KeyId)
  | focusGained
  | focusLost (reason : FocusReason)
  | exposure (cls : Exposure) (visible : Nat)
  | done (r : Report)
  | failed (r : Report)
  | leaseWarning (ms : Nat)
  | leaseLapsed (ms : Nat)
  | toneEnded (tag : Byte) (reason : ToneReason)
  deriving DecidableEq, Repr

/-- An event record (R123): body, timestamp, window handle or none, and its held mark (R122). -/
structure Record where
  body   : EventBody
  time   : BitVec 16
  handle : Option Handle
  held   : Bool
  deriving DecidableEq, Repr

/-- Reply bodies (Table 11-2). -/
inductive ReplyBody where
  | none
  | admission (commands payloadBytes : Nat)
  | attach (epoch : Byte) (gridCols gridRows : Nat) (profile : PortProfile)
  | renew (epoch : Byte) (lease : Nat) (restored : Bool)
  | detach (epoch : Byte) (found : PortState)
  | events (records : List Record) (lost remaining : Nat)
  | status (state : PortState) (epoch : Byte) (remaining commands payloadBytes : Nat) (head : HeadState)
      (records lost windows strips errors : Nat) (defaulted : Bool) (frame time : BitVec 16)
  | abort (removed : Nat) (stopped : Bool)
  deriving DecidableEq, Repr

/-- Reply codes (Table 11-2). -/
inductive ReplyCode where
  | empty
  | ack
  | ackDuplicate
  | nak (reason : NakReason)
  deriving DecidableEq, Repr

/-- A reply: its code, the tag of the frame that caused it and its body (R170). -/
structure Reply where
  code : ReplyCode
  tag  : Byte
  body : ReplyBody
  deriving DecidableEq, Repr

/-- A FETCH under way: the reply bytes it began with, and whether its end may still consume the buffer (R171). -/
structure Transfer where
  bytes : List Byte
  live  : Bool
  deriving DecidableEq, Repr

/-- An active tone request (R158, Table 10-1); `duration` is in steps of 100 ms, `age` in milliseconds. -/
structure Tone where
  pattern   : TonePattern
  pitch     : Pitch
  band      : Band
  duration  : Nat
  tag       : Byte
  endReport : Bool
  seq       : Nat
  age       : Nat
  deriving DecidableEq, Repr

/-! ## What the part holds per port -/

/-- All that the part holds for one port: the session record (R103), the link unit (R44, R122, R166, R169 to R173), the head's
progress and the chain outcome (R46, R56), the holdings and glyph bank (R4, R13), the brightness request and frame-mark
waiter (R96, R98) and the tone request (R158). `dataOut` holds what the latest transaction of the link shifted out after its lead
byte, every byte it does not list being 00h; it is empty after a SEND and after an ignored transaction, in which data out is held at
0 (R166, R171, log 16). -/
structure PortRec where
  state       : PortState
  epoch       : Byte
  lease       : Nat
  grace       : Nat
  warned      : Bool
  reply       : Option Reply
  transfer    : Option Transfer
  dataOut     : List Byte
  errors      : Nat
  duplicate   : Option (Byte × Byte)
  queue       : List QCmd
  progress    : Progress
  stopMark    : Bool
  chain       : ChainOutcome
  events      : List Record
  lost        : Nat
  windowsHeld : Nat
  stripsHeld  : Nat
  bank        : Vector Pattern 64
  brightness  : Option Nat
  waiter      : Bool
  tone        : Option Tone
  deriving DecidableEq, Repr

/-- A port after device reset: every block's own reset state; a port counts as DETACHED while STARTING (R103). -/
def PortRec.reset : PortRec where
  state       := .detached
  epoch       := 0
  lease       := 0
  grace       := 0
  warned      := false
  reply       := none
  transfer    := none
  dataOut     := []
  errors      := 0
  duplicate   := none
  queue       := []
  progress    := .fresh
  stopMark    := false
  chain       := .none
  events      := []
  lost        := 0
  windowsHeld := 0
  stripsHeld  := 0
  bank        := Vector.replicate 64 blankPattern
  brightness  := none
  waiter      := false
  tone        := none

/-! ## The compositor, the touch sampler, the input router and the key scanner -/

/-- A window of the latched composition list (R26, R90), with the strips its NORMAL cells are read from. -/
structure LatchedWindow where
  handle    : Handle
  owner     : Port
  band      : Band
  view      : Rect
  offCol    : Nat
  offRow    : Nat
  rendering : Rendering
  sc        : Nat
  stripMap  : List Nat
  deriving DecidableEq, Repr

/-- What is latched of the key focus window (R90). -/
structure LatchedFocus where
  handle      : Handle
  curCol      : Nat
  curRow      : Nat
  cursorShown : Bool
  fg          : Fin 16
  deriving DecidableEq, Repr

/-- The composition list latched at a frame start (R90), top window first. -/
structure Latched where
  windows : List LatchedWindow
  focus   : Option LatchedFocus
  deriving DecidableEq, Repr

/-- A screen cell as fetched for the row buffer: its cell value and the pattern its glyph code selected (R92). -/
structure FetchedCell where
  cell    : Cell
  pattern : Pattern
  deriving DecidableEq, Repr

/-- The touch sampler (Table 8-1). -/
structure Sampler where
  down         : Bool
  run          : Nat
  lastContact  : Option Pixel
  lastReported : Option Pixel
  deriving DecidableEq, Repr

/-- The touch sampler after device reset (Table 8-1). -/
def Sampler.reset : Sampler := ⟨false, 0, none, none⟩

/-- The touch capture (R139). -/
inductive Capture where
  | idle
  | captured (h : Handle) (owner : Port)
  | orphan
  deriving DecidableEq, Repr

/-- A key capture: the ports delivered to at the down, and the handle where the routing was FOCUS (R150). -/
structure KeyCapture where
  ports  : List Port
  handle : Option Handle
  deriving DecidableEq, Repr

/-- One key of the scanner and the router (R147, R148, R150); `timer` is the repeat timer, none when stopped. -/
structure KeyRec where
  down    : Bool
  agree   : Nat
  timer   : Option Nat
  capture : Option KeyCapture
  deriving DecidableEq, Repr

/-- A key after device reset (R147, R151). -/
def KeyRec.reset : KeyRec := ⟨false, 0, none, none⟩

/-! ## The state -/

/-- The state of the part. Windows are held once, in stack order from the top: the list is the window table and the stack
both (R16, R21). The head states, the RDY and ATN lines and the composed-shown state are read from it (Machine/Flags.lean).
`waitingRemoval` is the port of a teardown whose next removal is to be taken after the slice in flight (R81, log 31). -/
structure State where
  device           : DeviceState
  timeBase         : BitVec 16
  profile          : Option Profile
  profileDefaulted : Bool
  ports            : Vector PortRec 4
  windows          : List Window
  generations      : Vector Byte 24
  memory           : Memory
  available        : List Nat
  retiring         : List Nat
  waitingRemoval   : Option Port
  slice            : Option Port
  urgentNext       : Port
  normalNext       : Port
  urgentRun        : Nat
  frameNumber      : BitVec 16
  blinkCount       : Nat
  framePhase       : Nat
  latched          : Option Latched
  brightness       : Nat
  scanRow          : Nat
  rowBuffer        : List FetchedCell
  pixelRows        : List (List Colour)
  sampler          : Sampler
  capture          : Capture
  focus            : Option Handle
  keys             : Vector KeyRec 8
  toneSeq          : Nat
  sounding         : Option Port
  sounder          : Option Pitch
  pending          : List Instr
  deriving DecidableEq, Repr

/-- The machine right after reset: device reset has just ended, so the device is STARTING and the time base is 0 (R178), and
every block is in its reset state (R9, R19, R43, R50, R65, R91, R102, R103, R122, R139, R147, R153, R158). -/
def State.reset : State where
  device           := .starting
  timeBase         := 0
  profile          := none
  profileDefaulted := false
  ports            := Vector.replicate 4 PortRec.reset
  windows          := []
  generations      := Vector.replicate 24 0
  memory           := []
  available        := List.range Config.strips
  retiring         := []
  waitingRemoval   := none
  slice            := none
  urgentNext       := 0
  normalNext       := 0
  urgentRun        := 0
  frameNumber      := 0
  blinkCount       := 0
  framePhase       := 0
  latched          := none
  brightness       := 0
  scanRow          := 0
  rowBuffer        := []
  pixelRows        := []
  sampler          := .reset
  capture          := .idle
  focus            := none
  keys             := Vector.replicate 8 KeyRec.reset
  toneSeq          := 1
  sounding         := none
  sounder          := none
  pending          := []

end Sys2Proof.Machine
end

