-- ==== Sys2Proof/Machine/Encoding.lean ====
section
/-! DEFINITION. Machine/Encoding.lean: the byte encodings of the host links (chapter 11): check bytes, the codes of named
values, cells, event records and replies, and the judgement of a SEND. -/

namespace Sys2Proof.Machine

/-! ## Check bytes -/

/-- One bit of the CRC-8 with polynomial x⁸ + x² + x + 1, most significant bit first (R167). -/
def crc8Bit (c : Byte) : Byte :=
  if c.msb then (c <<< 1) ^^^ 0x07#8 else c <<< 1

/-- The CRC-8 of a byte string: initial value 0, no inversion, no reversal (R167). -/
def crc8 (bytes : List Byte) : Byte :=
  bytes.foldl (fun c b => Nat.repeat crc8Bit 8 (c ^^^ b)) 0

/-- One bit of the CRC-16 with polynomial x¹⁶ + x¹² + x⁵ + 1, most significant bit first (R180). -/
def crc16Bit (c : BitVec 16) : BitVec 16 :=
  if c.msb then (c <<< 1) ^^^ 0x1021#16 else c <<< 1

/-- The CRC-16 of a byte string: initial value FFFFh, no final inversion (R180). -/
def crc16 (bytes : List Byte) : BitVec 16 :=
  bytes.foldl (fun c b => Nat.repeat crc16Bit 8 (c ^^^ ((b.setWidth 16 : BitVec 16) <<< (8 : Nat)))) 0xFFFF#16

/-! ## Numbers and named values (R174) -/

/-- A number as two bytes, high byte first (R174). -/
def be16 (n : Nat) : List Byte := [BitVec.ofNat 8 (n / 256), BitVec.ofNat 8 n]

/-- A number as one byte (R174). -/
def byte (n : Nat) : Byte := BitVec.ofNat 8 n

/-- A yes/no field: 00h or 01h (R174). -/
def boolByte (b : Bool) : Byte := if b then 1 else 0

/-- The byte at a position of a byte string, a missing byte read as 00h (R174). -/
def byteAt (bytes : List Byte) (i : Nat) : Nat := (bytes.getD i 0).toNat

/-- The number in two bytes, high byte first (R174). -/
def wordAt (bytes : List Byte) (i : Nat) : Nat := 256 * byteAt bytes i + byteAt bytes (i + 1)

/-- A yes/no operand; any other byte has no meaning (R174). -/
def boolOf : Nat → Option Bool
  | 0 => some false
  | 1 => some true
  | _ => none

/-- The rank of a band in the order BASE < ALERT < CRITICAL, which is also its code (R174). -/
def Band.rank : Band → Nat
  | .base => 0
  | .alert => 1
  | .critical => 2

/-- The band of a code (R174). -/
def bandOf : Nat → Option Band
  | 0 => some .base
  | 1 => some .alert
  | 2 => some .critical
  | _ => none

/-- The code of a touch mode: its position in the list of Table 2-1 (R174). -/
def TouchMode.code : TouchMode → Nat
  | .take => 0
  | .block => 1
  | .pass => 2

/-- The touch mode of a code (R174). -/
def touchModeOf : Nat → Option TouchMode
  | 0 => some .take
  | 1 => some .block
  | 2 => some .pass
  | _ => none

/-- The code of a lapse policy: its position in the list of Table 2-1 (R174). -/
def LapsePolicy.code : LapsePolicy → Nat
  | .keep => 0
  | .hide => 1
  | .mark => 2

/-- The lapse policy of a code (R174). -/
def lapsePolicyOf : Nat → Option LapsePolicy
  | 0 => some .keep
  | 1 => some .hide
  | 2 => some .mark
  | _ => none

/-- The code of an exposure class: its position in the list of Table 2-1 (R174). -/
def Exposure.code : Exposure → Nat
  | .full => 0
  | .part => 1
  | .none => 2

/-- The code of a port state (chapter 11, after Table 11-6). -/
def PortState.code : PortState → Nat
  | .disabled => 0
  | .detached => 1
  | .live => 2
  | .lapsed => 3
  | .closing => 4

/-- The code of a head state, EMPTY 00h to PARKED 04h (Table 11-6). -/
def HeadState.code : HeadState → Nat
  | .empty => 0
  | .waiting => 1
  | .inFlight => 2
  | .inProgress => 3
  | .parked => 4

/-- The code of a completion status, OK 00h to SKIPPED 0Ch (Table 11-5). -/
def Status.code : Status → Nat
  | .ok => 0
  | .noWindow => 1
  | .notOwner => 2
  | .notPermitted => 3
  | .quota => 4
  | .noSpace => 5
  | .noSlot => 6
  | .badGeometry => 7
  | .badArg => 8
  | .denied => 9
  | .sourceLost => 10
  | .aborted => 11
  | .skipped => 12

/-- The code of a TOUCH_CANCEL reason: its position in the list of Table 7-1 (R174). -/
def CancelReason.code : CancelReason → Nat
  | .removed => 0
  | .lapsed => 1

/-- The code of a FOCUS_LOST reason: its position in the list of Table 7-1 (R174). -/
def FocusReason.code : FocusReason → Nat
  | .hidden => 0
  | .removed => 1
  | .modes => 2
  | .lapsed => 3
  | .released => 4
  | .moved => 5

/-- The code of a TONE_ENDED reason: its position in the list of Table 7-1 (R174). -/
def ToneReason.code : ToneReason → Nat
  | .elapsed => 0
  | .stopped => 1
  | .replaced => 2
  | .silenced => 3
  | .lapsed => 4

/-- The tone pattern of a code (R174, Table 10-1). -/
def tonePatternOf : Nat → Option TonePattern
  | 0 => some .steady
  | 1 => some .pulsed
  | 2 => some .chirp
  | _ => none

/-- The pitch of a code (R174, Table 10-1). -/
def pitchOf : Nat → Option Pitch
  | 0 => some .low
  | 1 => some .high
  | _ => none

/-- The key routing of a code (R180). -/
def routingOf : Nat → Option Routing
  | 0 => some .focus
  | 1 => some (.port 0)
  | 2 => some (.port 1)
  | 3 => some (.port 2)
  | 4 => some (.port 3)
  | 5 => some .all
  | 6 => some .silence
  | 7 => some .none
  | _ => none

/-- The frame kind code of a queued command (Table 11-3). -/
def kindCode : CommandKind → Nat
  | .createWindow => 0x20
  | .destroyWindow => 0x21
  | .placeWindow => 0x22
  | .showWindow => 0x23
  | .hideWindow => 0x24
  | .raiseWindow => 0x25
  | .lowerWindow => 0x26
  | .setBand => 0x27
  | .setWindowModes => 0x28
  | .grantRead => 0x29
  | .revokeRead => 0x2A
  | .queryWindow => 0x2B
  | .setPen => 0x30
  | .setCursor => 0x31
  | .writeText => 0x32
  | .putCells => 0x33
  | .fillRect => 0x34
  | .copyRect => 0x35
  | .shiftRect => 0x36
  | .readCells => 0x37
  | .loadGlyphs => 0x38
  | .requestFocus => 0x40
  | .releaseFocus => 0x41
  | .toneStart => 0x42
  | .toneStop => 0x43
  | .setBrightness => 0x44
  | .frameMark => 0x45

/-- Every kind of queued command, in code order (Table 11-3). -/
def allKinds : List CommandKind :=
  [.createWindow, .destroyWindow, .placeWindow, .showWindow, .hideWindow, .raiseWindow, .lowerWindow, .setBand,
   .setWindowModes, .grantRead, .revokeRead, .queryWindow, .setPen, .setCursor, .writeText, .putCells, .fillRect,
   .copyRect, .shiftRect, .readCells, .loadGlyphs, .requestFocus, .releaseFocus, .toneStart, .toneStop, .setBrightness,
   .frameMark]

/-- The queued command that a kind byte names, if any (Table 11-3). -/
def kindOf (code : Nat) : Option CommandKind := allKinds.find? (fun k => kindCode k == code)

/-! ## Cells (Table 11-4) -/

/-- The low four bits of a number as a colour index. -/
def colourIndex (n : Nat) : Fin 16 := Fin.ofNat 16 n

/-- The cell in three bytes at a position: glyph code low byte, then bit 8 with blink and inverse, then the two colour
indices; bits 3 to 7 of the second byte are ignored (Table 11-4). -/
def cellAt (bytes : List Byte) (i : Nat) : Cell :=
  let b1 := bytes.getD (i + 1) 0
  let b2 := byteAt bytes (i + 2)
  { glyph   := byteAt bytes i + (if b1.getLsbD 0 then 256 else 0)
    fg      := colourIndex (b2 / 16)
    bg      := colourIndex b2
    blink   := b1.getLsbD 1
    inverse := b1.getLsbD 2 }

/-- A cell as three bytes (Table 11-4). -/
def cellBytes (c : Cell) : List Byte :=
  [byte c.glyph,
   byte (c.glyph / 256 % 2 + (if c.blink then 2 else 0) + (if c.inverse then 4 else 0)),
   byte (16 * c.fg.val + c.bg.val)]

/-- A handle as two bytes, slot then generation (R174). -/
def handleBytes (h : Handle) : List Byte := [byte h.slot, h.gen]

/-! ## Records and replies -/

/-- The result part of a QUERY_WINDOW: the fields of R39 in its order, each encoded as R174 gives, the grant list preceded
by a count byte. -/
def windowBytes (w : Window) : List Byte :=
  handleBytes w.handle
    ++ [byte w.owner.val, byte w.band.rank, if w.shown then 0 else 1,
        byte w.view.col, byte w.view.row, byte w.view.w, byte w.view.h, byte w.offCol, byte w.offRow, byte w.sc, byte w.sr]
    ++ be16 w.stripMap.length
    ++ [byte w.curCol, byte w.curRow]
    ++ cellBytes w.pen ++ cellBytes w.clear
    ++ [boolByte w.wrap, boolByte w.autoscroll, boolByte w.cursorShown, byte w.touchMode.code, boolByte w.keyEligible,
        byte w.lapsePolicy.code, byte w.grants.length]
    ++ w.grants.map (fun p => byte p.val)
    ++ [byte w.exposure.code] ++ be16 w.visible

/-- The bytes of a result part (R57, R174); the cells of a READ_CELLS are a list and so preceded by a count byte. -/
def ResultPart.bytes : ResultPart → List Byte
  | .none => []
  | .handle h => handleBytes h
  | .window w => windowBytes w
  | .cells cs => byte cs.length :: (cs.map cellBytes).flatten
  | .frame n => be16 n.toNat

/-- The flags byte of a report: bits 0 to 2 as the frame's, bit 3 set when the cells done field is present (Table 11-5). -/
def Report.flagsByte (r : Report) : Byte :=
  Config.reportSpareBits ++
    BitVec.ofNat 4 ((if r.report then 1 else 0) + (if r.urgent then 2 else 0) + (if r.chain then 4 else 0)
      + (if r.cellsDone.isSome then 8 else 0))

/-- The body of a DONE or FAILED record (Table 11-5); the cells done bytes are present when flags bit 3 says so. -/
def Report.bytes (r : Report) : List Byte :=
  [r.tag, byte (kindCode r.kind), byte r.status.code, r.flagsByte]
    ++ (match r.cellsDone with | none => [] | some n => be16 n)
    ++ [byte r.result.bytes.length] ++ r.result.bytes

/-- The kind code of an event record (Table 11-5). -/
def EventBody.code : EventBody → Nat
  | .touchPress _ => 0x01
  | .touchMove _ => 0x02
  | .touchRelease _ => 0x03
  | .touchCancel _ => 0x04
  | .keyDown _ => 0x05
  | .keyRepeat _ => 0x06
  | .keyUp _ => 0x07
  | .focusGained => 0x08
  | .focusLost _ => 0x09
  | .exposure _ _ => 0x0A
  | .done _ => 0x0B
  | .failed _ => 0x0C
  | .leaseWarning _ => 0x0D
  | .leaseLapsed _ => 0x0E
  | .toneEnded _ _ => 0x0F

/-- The body bytes of an event record (Table 11-5). -/
def EventBody.bytes : EventBody → List Byte
  | .touchPress q => be16 q.x ++ be16 q.y
  | .touchMove q => be16 q.x ++ be16 q.y
  | .touchRelease q => be16 q.x ++ be16 q.y
  | .touchCancel r => [byte r.code]
  | .keyDown k => [byte k.val]
  | .keyRepeat k => [byte k.val]
  | .keyUp k => [byte k.val]
  | .focusGained => []
  | .focusLost r => [byte r.code]
  | .exposure c n => byte c.code :: be16 n
  | .done r => r.bytes
  | .failed r => r.bytes
  | .leaseWarning ms => be16 ms
  | .leaseLapsed ms => be16 ms
  | .toneEnded tag r => [tag, byte r.code]

/-- An event record as bytes (Table 11-5). -/
def Record.bytes (r : Record) : List Byte :=
  byte r.body.code :: be16 r.time.toNat
    ++ (match r.handle with | none => [0, Config.absentGeneration] | some h => handleBytes h)
    ++ [byte r.body.bytes.length] ++ r.body.bytes

/-- The code of a NAK reason (Table 11-2). -/
def NakReason.code : NakReason → Nat
  | .framing => 0x10
  | .check => 0x11
  | .kind => 0x12
  | .length => 0x13
  | .starting => 0x14
  | .disabled => 0x15
  | .state => 0x16
  | .busy => 0x17
  | .full => 0x18

/-- The byte of a reply code (Table 11-2). -/
def ReplyCode.code : ReplyCode → Nat
  | .empty => 0x00
  | .ack => 0x01
  | .ackDuplicate => 0x02
  | .nak r => r.code

/-- The bytes of a reply body (Tables 6-3, 11-2 and 11-6). -/
def ReplyBody.bytes : ReplyBody → List Byte
  | .none => []
  | .admission n b => byte n :: be16 b
  | .attach epoch cols rows q =>
      [epoch, byte cols, byte rows, byte q.maxBand.rank, byte q.windowQuota] ++ be16 q.stripQuota
        ++ [boolByte q.urgentPermitted] ++ be16 q.leasePeriod ++ be16 q.gracePeriod
  | .renew epoch lease restored => epoch :: be16 lease ++ [boolByte restored]
  | .detach epoch found => [epoch, byte found.code]
  | .events rs lost remaining =>
      [byte rs.length, byte lost, byte remaining] ++ (rs.map Record.bytes).flatten
  | .status st epoch rem n b head recs lost wins strips errs defaulted frame time =>
      [byte st.code, epoch] ++ be16 rem ++ [byte n] ++ be16 b ++ [byte head.code, byte recs, byte lost, byte wins]
        ++ be16 strips ++ [byte errs, Config.statusSpareBits ++ BitVec.ofBool defaulted]
        ++ be16 frame.toNat ++ be16 time.toNat
  | .abort n stopped => [byte n, boolByte stopped]

/-- The bytes of a reply before its check byte (Table 11-1). -/
def Reply.head (r : Reply) : List Byte :=
  [byte r.code.code, r.tag] ++ be16 r.body.bytes.length ++ r.body.bytes

/-- A reply as the link unit shifts it out: the CRC-8 of all that precedes it closes it (R167, Table 11-1). -/
def Reply.bytes (r : Reply) : List Byte := r.head ++ [crc8 r.head]

/-- The EMPTY reply (R171). -/
def Reply.emptyReply : Reply := ⟨.empty, 0, .none⟩

/-! ## Frames (R167, R168) -/

/-- The header and payload of a frame: everything before its check byte (Table 11-1). -/
def frameBytes (kind flags tag : Byte) (payload : List Byte) : List Byte :=
  [kind, flags, tag] ++ be16 payload.length ++ payload

/-- What a frame that passed the link checks asks: a link request or a queued command (Table 11-3). -/
inductive FrameKind where
  | attach | detach | renew | readEvents | status | abort
  | queued (k : CommandKind)
  deriving DecidableEq, Repr

/-- The frame kind that a kind byte names, if any (Table 11-3). -/
def frameKindOf (code : Nat) : Option FrameKind :=
  match code with
  | 1 => some .attach
  | 2 => some .detach
  | 3 => some .renew
  | 4 => some .readEvents
  | 5 => some .status
  | 6 => some .abort
  | n => (kindOf n).map .queued

/-- What the checks of R168 find in the bytes of a SEND. -/
inductive Verdict where
  | nak (reason : NakReason) (tag : Byte)
  | frame (kind : FrameKind) (flags tag : Byte) (payload : List Byte)
  deriving DecidableEq, Repr

/-- The checks of R168, in its order. -/
def judgeSend (bytes : List Byte) : Verdict :=
  let tag := bytes.getD 2 0
  let len := wordAt bytes 3
  if bytes.length < 5 then .nak .framing 0
  else if len > Config.maxPayload then .nak .length tag
  else if bytes.length < 5 + len + 1 then .nak .framing tag
  else if bytes.getD (5 + len) 0 ≠ crc8 (bytes.take (5 + len)) then .nak .check tag
  else match frameKindOf (byteAt bytes 0) with
    | none => .nak .kind tag
    | some k => .frame k (bytes.getD 1 0) tag ((bytes.drop 5).take len)

end Sys2Proof.Machine
end

