-- ==== Sys2Proof/Machine/Panel.lean ====
section
/-! DEFINITION. Machine/Panel.lean: the panel profile: its image, its judgement and the built-in default (chapter 12). -/

namespace Sys2Proof.Machine

/-- A port's fields in the built-in default profile (Table 12-1). -/
def PortProfile.default_ : PortProfile where
  enabled         := true
  maxBand         := .alert
  windowQuota     := 6
  stripQuota      := 256
  urgentPermitted := false
  leasePeriod     := 2000
  gracePeriod     := 10000

/-- The built-in default profile (Table 12-1). Its palette is known by colour names only (Table 12-2, log 5). -/
def Profile.default_ : Profile where
  gridCols          := 80
  gridRows          := 30
  palette           := Config.defaultPalette
  deskCell          := ⟨0, 15, 0, false, false⟩
  lapseCell         := ⟨177, 15, 1, false, false⟩
  defaultBrightness := 70
  criticalFloor     := 90
  touchEnabled      := true
  offsetX           := 0
  offsetY           := 0
  gainX             := 1024
  gainY             := 1024
  moveThreshold     := 4
  routing           := #v[.focus, .focus, .focus, .focus, .focus, .focus, .focus, .silence]
  repeatEnabled     := #v[true, true, true, true, true, true, true, false]
  repeatDelay       := 500
  repeatInterval    := 100
  ports             := Vector.replicate 4 PortProfile.default_

/-- Why an image is not used (R181), in the order of its checks. -/
inductive LoadFailure where
  | absent | version | crc | range
  deriving DecidableEq, Repr

/-- A value inside a range of Table 12-1. -/
def inRange (n lo hi : Nat) : Bool := lo ≤ n && n ≤ hi

/-- A two-byte number in two's complement (R180). -/
def signedWordAt (bytes : List Byte) (i : Nat) : Int := (BitVec.ofNat 16 (wordAt bytes i)).toInt

/-- The record of a port in the body, at byte 86 + 8 × p (R180); none when a field is out of range (R181). -/
def portProfileAt (body : List Byte) (p : Nat) : Option PortProfile :=
  let at_ := 86 + 8 * p
  match boolOf (byteAt body at_), bandOf (byteAt body (at_ + 1)), boolOf (byteAt body (at_ + 5)) with
  | some enabled, some band, some urgent =>
    if byteAt body (at_ + 2) ≤ 24 && wordAt body (at_ + 3) ≤ 1024 && inRange (byteAt body (at_ + 6)) 1 255
        && byteAt body (at_ + 7) ≤ 60 then
      some { enabled := enabled, maxBand := band, windowQuota := byteAt body (at_ + 2), stripQuota := wordAt body (at_ + 3),
             urgentPermitted := urgent, leasePeriod := 100 * byteAt body (at_ + 6),
             gracePeriod := 1000 * byteAt body (at_ + 7) }
    else none
  | _, _, _ => none

/-- The palette entry of an index (R180). -/
def paletteAt (body : List Byte) (i : Nat) : Colour :=
  ⟨body.getD (2 + 3 * i) 0, body.getD (3 + 3 * i) 0, body.getD (4 + 3 * i) 0⟩

/-- The scalar fields of the body lie in their ranges (Table 12-1), the desk and lapse cells' glyph codes among them (R3). -/
def scalarsInRange (body : List Byte) : Bool :=
  inRange (byteAt body 0) 40 100 && inRange (byteAt body 1) 15 40
    && decide ((cellAt body 50).glyph ≤ 255) && decide ((cellAt body 53).glyph ≤ 255)
    && decide (byteAt body 56 ≤ 100) && decide (byteAt body 57 ≤ 100) && (boolOf (byteAt body 58)).isSome
    && decide (-2048 ≤ signedWordAt body 59 ∧ signedWordAt body 59 ≤ 2047)
    && decide (-2048 ≤ signedWordAt body 61 ∧ signedWordAt body 61 ≤ 2047)
    && inRange (wordAt body 63) 512 2047 && inRange (wordAt body 65) 512 2047
    && inRange (byteAt body 67) 1 15
    && (List.range 8).all (fun k => (routingOf (byteAt body (68 + k))).isSome)
    && (List.range 8).all (fun k => (boolOf (byteAt body (76 + k))).isSome)
    && inRange (byteAt body 84) 25 255 && inRange (byteAt body 85) 5 127

/-- The fields of a version 01h body (R180); none when any field is out of range (R181). -/
def parseBody (body : List Byte) : Option Profile :=
  match portProfileAt body 0, portProfileAt body 1, portProfileAt body 2, portProfileAt body 3 with
  | some p0, some p1, some p2, some p3 =>
    if scalarsInRange body then
      some { gridCols := byteAt body 0
             gridRows := byteAt body 1
             palette := Vector.ofFn (fun i : Fin 16 => paletteAt body i.val)
             deskCell := cellAt body 50
             lapseCell := cellAt body 53
             defaultBrightness := byteAt body 56
             criticalFloor := byteAt body 57
             touchEnabled := byteAt body 58 == 1
             offsetX := signedWordAt body 59
             offsetY := signedWordAt body 61
             gainX := wordAt body 63
             gainY := wordAt body 65
             moveThreshold := byteAt body 67
             routing := Vector.ofFn (fun k : Fin 8 => (routingOf (byteAt body (68 + k.val))).getD .none)
             repeatEnabled := Vector.ofFn (fun k : Fin 8 => byteAt body (76 + k.val) == 1)
             repeatDelay := 10 * byteAt body 84
             repeatInterval := 10 * byteAt body 85
             ports := #v[p0, p1, p2, p3] }
    else none
  | _, _, _, _ => none

/-- The judgement of the profile image (R181): what the memory held, none if it did not answer, gives the profile loaded
whole or the first check that failed. An image cut short of its CRC has a wrong CRC. -/
def judgeImage : Option (List Byte) → Except LoadFailure Profile
  | none => .error .absent
  | some image =>
    if image.take 2 ≠ [0x56#8, 0x53#8] then .error .absent
    else if byteAt image 2 ≠ 1 ∨ wordAt image 3 ≠ 132 then .error .version
    else if image.length < 139 ∨ wordAt image 137 ≠ (crc16 (image.take 137)).toNat then .error .crc
    else match parseBody ((image.drop 5).take 132) with
      | none => .error .range
      | some p => .ok p

/-- The profile that stands after READY; the default stands in where none is loaded, which is only while no block uses it. -/
def State.prof (s : State) : Profile := s.profile.getD Profile.default_

/-- The profile's fields of a port. -/
def State.portProf (s : State) (p : Port) : PortProfile := s.prof.ports.get p

end Sys2Proof.Machine
end

