-- ==== Sys2Proof/Machine/Access.lean ====
section
/-! DEFINITION. Machine/Access.lean: reading and writing the parts of the state: ports, keys, windows by handle, and the
strip memory with the surface cells it holds. -/

namespace Sys2Proof.Machine

/-! ## Ports and keys -/

/-- What the part holds for a port. -/
def State.port (s : State) (p : Port) : PortRec := s.ports.get p

/-- The state with what it holds for a port replaced. -/
def State.setPort (s : State) (p : Port) (r : PortRec) : State := { s with ports := s.ports.set p.val r p.isLt }

/-- What the scanner and the router hold for a key. -/
def State.key (s : State) (k : KeyId) : KeyRec := s.keys.get k

/-- The state with what it holds for a key replaced. -/
def State.setKey (s : State) (k : KeyId) (r : KeyRec) : State := { s with keys := s.keys.set k.val r k.isLt }

/-! ## Windows -/

/-- The window that a handle names, none when the handle is stale (R19). -/
def State.windowOf (s : State) (h : Handle) : Option Window := s.windows.find? (fun w => w.handle == h)

/-- The state with the window that a handle names changed in place, its stack position kept. -/
def State.updateWindow (s : State) (h : Handle) (f : Window → Window) : State :=
  { s with windows := s.windows.map (fun w => if w.handle = h then f w else w) }

/-- The owner of the key focus window, none when there is no key focus (R153). -/
def State.focusOwner (s : State) : Option Port := (s.focus.bind s.windowOf).map (·.owner)

/-- The generation of a slot (R19). -/
def State.generationOf (s : State) (slot : Nat) : Byte := s.generations.toList.getD (slot - 1) 0

/-- The state with the generation of a slot increased by one, 255 followed by 0 (R19). -/
def State.bumpGeneration (s : State) (slot : Nat) : State :=
  { s with generations := s.generations.setIfInBounds (slot - 1) (s.generationOf slot + 1) }

/-! ## The strip memory (R7 to R9) -/

/-- The content of a strip: what the memory lists for it, the blank strip for a strip it does not list (R9). -/
def Memory.read (m : Memory) (k : Nat) : Strip :=
  match m with
  | [] => blankStrip
  | (a, x) :: rest => if a = k then x else Memory.read rest k

/-- The memory with a strip's content replaced, in canonical form: strips strictly rising and no blank one listed. -/
def Memory.write (m : Memory) (k : Nat) (v : Strip) : Memory :=
  match m with
  | [] => if v = blankStrip then [] else [(k, v)]
  | (a, x) :: rest =>
    if k < a then (if v = blankStrip then (a, x) :: rest else (k, v) :: (a, x) :: rest)
    else if a = k then (if v = blankStrip then rest else (k, v) :: rest)
    else (a, x) :: Memory.write rest k v

/-- Every strip listed has a number above `lo`, strictly rising, and none is blank. -/
def Memory.wfFrom (lo : Option Nat) : Memory → Bool
  | [] => true
  | (a, x) :: rest =>
    (match lo with | none => true | some b => decide (b < a)) && decide (x ≠ blankStrip) && Memory.wfFrom (some a) rest

/-- The canonical form of the strip memory: equal contents are equal lists. -/
def Memory.wf (m : Memory) : Bool := Memory.wfFrom none m

/-- The strips of one surface row: ceil(SC/16) (R6). -/
def stripsPerRow (sc : Nat) : Nat := (sc + 15) / 16

/-- The strips of a surface: SR × ceil(SC/16) (R6). -/
def stripsOf (sc sr : Nat) : Nat := sr * stripsPerRow sc

/-- The strip that holds surface column `c` of row `r`: entry r × ceil(SC/16) + floor(c/16) of the strip map (R7). -/
def stripAt (map : List Nat) (sc c r : Nat) : Nat := map.getD (r * stripsPerRow sc + c / 16) 0

/-- The position of a column in its strip: c mod 16 (R7). -/
def stripPos (c : Nat) : Fin 16 := Fin.ofNat 16 c

/-- The surface cell at (c, r), read through a strip map (R7, R8). -/
def Memory.cell (m : Memory) (map : List Nat) (sc c r : Nat) : Cell :=
  (Memory.read m (stripAt map sc c r)).get (stripPos c)

/-- The memory with the surface cell at (c, r) replaced whole (R1, R7). -/
def Memory.setCell (m : Memory) (map : List Nat) (sc c r : Nat) (v : Cell) : Memory :=
  let k := stripAt map sc c r
  let i := stripPos c
  Memory.write m k ((Memory.read m k).set i.val v i.isLt)

/-- Every position of the listed strips, tail positions included, set to one cell (R7). -/
def Memory.fill (m : Memory) (map : List Nat) (v : Cell) : Memory :=
  map.foldl (fun m k => Memory.write m k (Vector.replicate 16 v)) m

/-- A surface scrolled up by one row in one step: each row below takes the place of the row above it, and the last row is
filled with the clear cell (R74). Whole strips move, so tail positions move with them; they are never addressed (R6). -/
def Memory.scroll (m : Memory) (map : List Nat) (sc : Nat) (clear : Cell) : Memory :=
  let n := stripsPerRow sc
  let kept := (map.zip (map.drop n)).foldl (fun acc e => Memory.write acc e.1 (Memory.read m e.2)) m
  Memory.fill kept (map.drop (map.length - n)) clear

/-- The surface cell at (c, r) of a window (R7). -/
def State.cellOf (s : State) (w : Window) (c r : Nat) : Cell := Memory.cell s.memory w.stripMap w.sc c r

end Sys2Proof.Machine
end

