-- ==== Sys2Proof/Machine/Flags.lean ====
section
/-! DEFINITION. Machine/Flags.lean: what is read from the state: the head states, eligibility, the RDY, ATN and profile lines, the
composed-shown state and rendering of windows, exposure, the tone that sounds and the tone pair. Each is a function of the state, so it is
up to date in the step of each change to its inputs. -/

namespace Sys2Proof.Machine

/-! ## Port states and lines -/

/-- A port whose event queue takes records: LIVE or LAPSED (R125). -/
def PortState.takesRecords : PortState → Bool
  | .live => true
  | .lapsed => true
  | _ => false

/-- The payload bytes a command queue holds (R44). -/
def payloadBytes (q : List QCmd) : Nat := (q.map (·.payload.length)).sum

/-- The RDY output of a port (R175). -/
def State.rdy (s : State) (p : Port) : Bool :=
  s.device == .ready && (s.port p).state == .live
    && decide ((s.port p).queue.length < Config.queueCommands)
    && decide (payloadBytes (s.port p).queue + Config.maxPayload ≤ Config.queueBytes)

/-- The ATN output of a port (R132). -/
def State.atn (s : State) (p : Port) : Bool :=
  (s.port p).state.takesRecords && (decide ((s.port p).events ≠ []) || decide ((s.port p).lost > 0))

/-- What the part drives on the profile lines (R178, R184). -/
inductive ProfileLines where
  /-- Held idle: select high and clock low. -/
  | idle
  /-- Driven, as master, for the one sequential read of the configuration memory (R181). -/
  | reading
  deriving DecidableEq, Repr

/-- The levels of select and clock, in this order, true for high: those of the idle lines (R184), none while the load drives them in
a way that the manual does not give. -/
def ProfileLines.levels : ProfileLines → Option (Bool × Bool)
  | .idle => some (true, false)
  | .reading => none

/-- The profile lines: driven during the load only, which is while the device is STARTING, and held idle otherwise (R178, R181,
R184). -/
def State.profileLines (s : State) : ProfileLines :=
  match s.device with
  | .starting => .reading
  | _ => .idle

/-- The byte that data out shifted out at a place after the lead byte of the link's latest transaction (R166, R171). -/
def PortRec.dataOutAt (q : PortRec) (i : Nat) : Byte := q.dataOut.getD i 0

/-! ## Heads and classes -/

/-- The head state of a port's command queue (R45): the head in flight is the one the engine's slice belongs to, the parked
head is the one the compositor holds a waiter for, and a started head is IN_PROGRESS. -/
def State.headState (s : State) (p : Port) : HeadState :=
  if (s.port p).queue = [] then .empty
  else if s.slice = some p then .inFlight
  else if (s.port p).waiter then .parked
  else if (s.port p).progress.started then .inProgress
  else .waiting

/-- A port the arbiter may grant (R47). -/
def State.eligible (s : State) (p : Port) : Bool :=
  (s.port p).state == .live && (s.headState p == .waiting || s.headState p == .inProgress)

/-- The port's head asks for the URGENT class and the profile permits it (R48). -/
def State.urgentHead (s : State) (p : Port) : Bool :=
  (match (s.port p).queue with | [] => false | c :: _ => c.urgent) && (s.portProf p).urgentPermitted

/-- The six slice-based commands (R52). -/
def sliceBased : CommandKind → Bool
  | .fillRect => true
  | .putCells => true
  | .writeText => true
  | .copyRect => true
  | .shiftRect => true
  | .readCells => true
  | _ => false

/-! ## Composition -/

/-- Whether a window is composed shown, and its rendering (Table 2-4, R22). -/
def renderingOf (owner : PortState) (w : Window) : Option Rendering :=
  match owner with
  | .live => if w.shown then some .normal else none
  | .lapsed | .closing =>
    if w.band = .critical then some .mark
    else if w.shown then
      match w.lapsePolicy with
      | .keep => some .normal
      | .mark => some .mark
      | .hide => none
    else none
  | .detached | .disabled => none

/-- The rendering of a window for its owner's current port state (R22); none when it is not composed shown. -/
def State.rendering (s : State) (w : Window) : Option Rendering := renderingOf (s.port w.owner).state w

/-- The cells of a rectangle (R23, R67). -/
def contains (r : Rect) (c row : Nat) : Bool :=
  decide (r.col ≤ c) && decide (c < r.col + r.w) && decide (r.row ≤ row) && decide (row < r.row + r.h)

/-- The number of cells of a view that none of the views above it contains (R24). -/
def visibleCount (above : List Rect) (v : Rect) : Nat :=
  ((List.range v.h).map (fun j =>
    ((List.range v.w).filter (fun i => !above.any (fun a => contains a (v.col + i) (v.row + j)))).length)).sum

/-- The exposure class of a composed-shown window (R24). -/
def exposureClass (visible area : Nat) : Exposure :=
  if visible = area then .full else if visible = 0 then .none else .part

/-- The windows with their exposure and visible cells brought up to date, from the top of the stack down; `above` are the
views of the composed-shown windows already passed (R24). -/
def State.exposeFrom (s : State) (above : List Rect) : List Window → List Window
  | [] => []
  | w :: rest =>
    match s.rendering w with
    | none => { w with exposure := .none, visible := 0 } :: s.exposeFrom above rest
    | some _ =>
      { w with exposure := exposureClass (visibleCount above w.view) (w.view.w * w.view.h)
               visible := visibleCount above w.view } :: s.exposeFrom (w.view :: above) rest

/-! ## Tones -/

/-- A tone request sounds before another: a higher band, or the later start within a band (R159). -/
def Tone.beats (t u : Tone) : Bool :=
  decide (t.band.rank > u.band.rank) || (t.band == u.band && decide (t.seq > u.seq))

/-- One port's part in the sounding choice. -/
def State.soundStep (s : State) (best : Option Port) (p : Port) : Option Port :=
  match (s.port p).tone with
  | none => best
  | some t =>
    match best.bind (fun q => (s.port q).tone) with
    | none => some p
    | some u => if t.beats u then some p else best

/-- The port of the sounding request: the active request of the highest band and, in it, the latest start (R159). -/
def State.soundingChoice (s : State) : Option Port := allPorts.foldl s.soundStep none

/-- A request's pattern is in an on phase at its age (R159). -/
def Tone.onPhase (t : Tone) : Bool :=
  match t.pattern with
  | .steady => true
  | .pulsed => decide (t.age % 400 < 200)
  | .chirp => decide (t.age < 40)

/-- The age at which a request expires, none when it never does (R162). -/
def Tone.endTime (t : Tone) : Option Nat :=
  match t.pattern with
  | .chirp => some 40
  | _ => if t.duration = 0 then none else some (100 * t.duration)

/-- The pitch driven on the tone pair for a sounding request, none while silent (R159). -/
def State.drivenPitch (s : State) (sounding : Option Port) : Option Pitch :=
  match sounding.bind (fun p => (s.port p).tone) with
  | none => none
  | some t => if t.onPhase then some t.pitch else none

/-- What the part drives on the tone pair (R159, R184). -/
inductive TonePair where
  /-- Not driven: no tone sounds. -/
  | silent
  /-- Driven with the square wave of a pitch. -/
  | driven (pitch : Pitch)
  deriving DecidableEq, Repr

/-- The levels of the two lines of the tone pair, true for high: both low while silent, and in antiphase while a square wave
drives them, where `wave` is the level of the wave on the first line at the moment asked about (R184). -/
def TonePair.levels (wave : Bool) : TonePair → Bool × Bool
  | .silent => (false, false)
  | .driven _ => (wave, !wave)

/-- The frequency of the square wave in hertz, none while silent: LOW 2,400 Hz and HIGH 3,200 Hz (R158, Table 10-1, R184). -/
def TonePair.hertz : TonePair → Option Nat
  | .silent => none
  | .driven .low => some 2400
  | .driven .high => some 3200

/-- The tone pair: driven at the pitch of the sounding request while its pattern is in an on phase, and silent otherwise (R159,
R184). -/
def State.tonePair (s : State) : TonePair :=
  match s.sounder with
  | none => .silent
  | some q => .driven q

end Sys2Proof.Machine
end

