-- ==== Sys2Proof/Machine/Operands.lean ====
section
/-! DEFINITION. Machine/Operands.lean: the operands that a queued command's payload carries (R174), its handle resolution
(R20) and its geometry checks (R18, R67). A parser answers none where an operand has no meaning or the payload has the wrong
length; both end the command BAD_ARG. -/

namespace Sys2Proof.Machine

/-- A glyph code of a command operand is at most 319 (R1). -/
def glyphOk (c : Cell) : Bool := decide (c.glyph ≤ 319)

/-- The handle in two bytes, missing bytes read as 00h (R174). -/
def handleAt (pl : List Byte) (i : Nat) : Handle := ⟨byteAt pl i, pl.getD (i + 1) 0⟩

/-- The rectangle in four bytes: column, row, width and height (R174). -/
def rectAt (pl : List Byte) (i : Nat) : Rect :=
  ⟨byteAt pl i, byteAt pl (i + 1), byteAt pl (i + 2), byteAt pl (i + 3)⟩

/-- A signed operand in one byte, two's complement (R174). -/
def signedAt (pl : List Byte) (i : Nat) : Int := (pl.getD i 0).toInt

/-- The port that a port operand names; a number above 3 has no meaning (R20). -/
def portOf : Nat → Option Port
  | 0 => some 0
  | 1 => some 1
  | 2 => some 2
  | 3 => some 3
  | _ => none

/-! ## Handle resolution (R20) -/

/-- Resolution of the port's own window: NO_WINDOW when stale, NOT_OWNER when it is another port's. -/
def State.resolveOwn (s : State) (p : Port) (h : Handle) : Except Status Window :=
  match s.windowOf h with
  | none => .error .noWindow
  | some w => if w.owner = p then .ok w else .error .notOwner

/-- Resolution of a window the port may read: NOT_PERMITTED when another port's grant list lacks the port. -/
def State.resolveRead (s : State) (p : Port) (h : Handle) : Except Status Window :=
  match s.windowOf h with
  | none => .error .noWindow
  | some w => if w.owner = p ∨ p ∈ w.grants then .ok w else .error .notPermitted

/-! ## Geometry -/

/-- The view lies wholly on the screen (R18). -/
def onScreen (prof : Profile) (v : Rect) : Bool :=
  decide (v.col + v.w ≤ prof.gridCols) && decide (v.row + v.h ≤ prof.gridRows)

/-- The view lies wholly inside the surface at its offset (R18). -/
def inSurface (sc sr : Nat) (v : Rect) (offCol offRow : Nat) : Bool :=
  decide (offCol + v.w ≤ sc) && decide (offRow + v.h ≤ sr)

/-- The geometry of a window obeys the ranges of Table 2-1 and both constraints (R18). -/
def geometryOk (prof : Profile) (sc sr : Nat) (v : Rect) (offCol offRow : Nat) : Bool :=
  inRange sc 1 128 && inRange sr 1 64 && inRange v.w 1 100 && inRange v.h 1 40
    && onScreen prof v && inSurface sc sr v offCol offRow

/-- A rectangle operand has a width of 1 to 128 and a height of 1 to 64 and lies wholly inside the surface (R67). -/
def rectOk (sc sr : Nat) (r : Rect) : Bool :=
  inRange r.w 1 128 && inRange r.h 1 64 && decide (r.col + r.w ≤ sc) && decide (r.row + r.h ≤ sr)

/-! ## Operands of the window commands -/

/-- The operands of CREATE_WINDOW (R27). -/
structure CreateOperands where
  band   : Band
  sc     : Nat
  sr     : Nat
  view   : Rect
  offCol : Nat
  offRow : Nat
  clear  : Cell
  deriving DecidableEq, Repr

/-- CREATE_WINDOW: band, surface size, view position, view size, view offset, clear cell (R27). -/
def createOperands (pl : List Byte) : Option CreateOperands :=
  match bandOf (byteAt pl 0) with
  | none => none
  | some b =>
    if pl.length = 12 ∧ glyphOk (cellAt pl 9) then
      some ⟨b, byteAt pl 1, byteAt pl 2, rectAt pl 3, byteAt pl 7, byteAt pl 8, cellAt pl 9⟩
    else none

/-- The seven optional operands of SET_WINDOW_MODES (R36). -/
structure ModeOperands where
  wrap        : Option Bool
  autoscroll  : Option Bool
  cursorShown : Option Bool
  touchMode   : Option TouchMode
  keyEligible : Option Bool
  lapsePolicy : Option LapsePolicy
  clear       : Option Cell
  deriving DecidableEq, Repr

/-- Where operand `i` of a SET_WINDOW_MODES stands: after the presence byte, the handle and the present operands before it,
each of one byte (R174). DEDUCED (log 30): the handle stands in bytes 1 and 2, after the presence byte. -/
def modeAt (presence : Byte) (i : Nat) : Nat :=
  3 + ((List.range i).filter (fun j => presence.getLsbD j)).length

/-- A present operand must have a meaning; an absent one is none (R36). -/
def optionalOperand {α : Type} (isPresent : Bool) (value : Option α) : Option (Option α) :=
  if isPresent then value.map some else some none

/-- SET_WINDOW_MODES: it begins with a presence byte whose bits 0 to 6 mark the operands in their listed order; the handle and
the present ones follow (R174). DEDUCED (log 30): the handle is the first to follow, in bytes 1 and 2. Whether a presence byte
with bit 7 set is refused is a free value (log 6). -/
def modeOperands (pl : List Byte) : Option ModeOperands :=
  let pr := pl.getD 0 0
  let here := fun (i : Nat) => pr.getLsbD i
  let clear := cellAt pl (modeAt pr 6)
  match optionalOperand (here 0) (boolOf (byteAt pl (modeAt pr 0))),
      optionalOperand (here 1) (boolOf (byteAt pl (modeAt pr 1))),
      optionalOperand (here 2) (boolOf (byteAt pl (modeAt pr 2))),
      optionalOperand (here 3) (touchModeOf (byteAt pl (modeAt pr 3))),
      optionalOperand (here 4) (boolOf (byteAt pl (modeAt pr 4))),
      optionalOperand (here 5) (lapsePolicyOf (byteAt pl (modeAt pr 5))),
      optionalOperand (here 6) (if glyphOk clear then some clear else none) with
  | some a, some b, some c, some d, some e, some f, some g =>
    if pl.length = modeAt pr 6 + (if here 6 then 3 else 0) ∧ ¬ (pr.getLsbD 7 && Config.presenceBit7Refused) then
      some ⟨a, b, c, d, e, f, g⟩
    else none
  | _, _, _, _, _, _, _ => none

/-! ## Operands of the drawing commands -/

/-- An item of a WRITE_TEXT (R71). -/
inductive TextItem where
  | glyph (code : Nat)
  | newLine
  | return
  deriving DecidableEq, Repr

/-- The item in two bytes: 0000h to 013Fh a glyph code, FFFEh NEW_LINE, FFFFh RETURN; no other value has a meaning (R174). -/
def textItemOf (n : Nat) : Option TextItem :=
  if n ≤ 319 then some (.glyph n)
  else if n = 0xFFFE then some .newLine
  else if n = 0xFFFF then some .return
  else none

/-- The `n` items from byte `i` on; none when one of them has no meaning. -/
def textItemsFrom (pl : List Byte) : Nat → Nat → Option (List TextItem)
  | _, 0 => some []
  | i, n + 1 =>
    match textItemOf (wordAt pl i), textItemsFrom pl (i + 2) n with
    | some x, some xs => some (x :: xs)
    | _, _ => none

/-- WRITE_TEXT: 1 to 254 items after a count byte (R71, R174). -/
def textOperands (pl : List Byte) : Option (List TextItem) :=
  let n := byteAt pl 2
  if inRange n 1 254 ∧ pl.length = 3 + 2 * n then textItemsFrom pl 3 n else none

/-- The cell list of a PUT_CELLS, after its count byte (R76, R174). -/
def cellsFrom (pl : List Byte) (i n : Nat) : List Cell := (List.range n).map (fun k => cellAt pl (i + 3 * k))

/-- PUT_CELLS: a rectangle and a list of one cell for each of its cells (R76). The geometry is checked afterwards. -/
def putOperands (pl : List Byte) : Option (Rect × List Cell) :=
  let r := rectAt pl 2
  let n := byteAt pl 6
  let cs := cellsFrom pl 7 n
  if n = r.w * r.h ∧ pl.length = 7 + 3 * n ∧ cs.all glyphOk then some (r, cs) else none

/-- FILL_RECT: a rectangle and a cell value (R77). -/
def fillOperands (pl : List Byte) : Option (Rect × Cell) :=
  if pl.length = 9 ∧ glyphOk (cellAt pl 6) then some (rectAt pl 2, cellAt pl 6) else none

/-- SHIFT_RECT: a rectangle, a row shift and a column shift, each of magnitude at most 63 and not both 0 (R82). -/
def shiftOperands (pl : List Byte) : Option (Rect × Int × Int) :=
  let dr := signedAt pl 6
  let dc := signedAt pl 7
  if pl.length = 8 ∧ dr.natAbs ≤ 63 ∧ dc.natAbs ≤ 63 ∧ ¬ (dr = 0 ∧ dc = 0) then some (rectAt pl 2, dr, dc) else none

/-- READ_CELLS: a start cell and a count of 1 to 16 (R84). -/
def readOperands (pl : List Byte) : Option (Nat × Nat × Nat) :=
  if pl.length = 5 ∧ inRange (byteAt pl 4) 1 16 then some (byteAt pl 2, byteAt pl 3, byteAt pl 4) else none

/-- The pattern in 16 bytes, one per pixel row from the top (R174). -/
def patternAt (pl : List Byte) (i : Nat) : Pattern := Vector.ofFn (fun k : Fin 16 => pl.getD (i + k.val) 0)

/-- LOAD_GLYPHS: a first index and a list of 1 to 16 patterns that ends at pattern 63 at the latest (R85). -/
def glyphOperands (pl : List Byte) : Option (Nat × List Pattern) :=
  let first := byteAt pl 0
  let n := byteAt pl 1
  if inRange n 1 16 ∧ first ≤ 63 ∧ first + n ≤ 64 ∧ pl.length = 2 + 16 * n then
    some (first, (List.range n).map (fun k => patternAt pl (2 + 16 * k)))
  else none

/-! ## Operands of the other commands -/

/-- The operands of TONE_START (R160). -/
structure ToneOperands where
  pattern   : TonePattern
  pitch     : Pitch
  band      : Band
  duration  : Nat
  tag       : Byte
  endReport : Bool
  deriving DecidableEq, Repr

/-- TONE_START: pattern, pitch, band, duration of at most 600, tone tag and end report (R160). -/
def toneOperands (pl : List Byte) : Option ToneOperands :=
  match tonePatternOf (byteAt pl 0), pitchOf (byteAt pl 1), bandOf (byteAt pl 2), boolOf (byteAt pl 6) with
  | some a, some b, some c, some e =>
    if pl.length = 7 ∧ wordAt pl 3 ≤ 600 then some ⟨a, b, c, wordAt pl 3, pl.getD 5 0, e⟩ else none
  | _, _, _, _ => none

/-- SET_BRIGHTNESS: a level from 0 to 100, or CLEAR, which is FFh (R98, R174). -/
def brightnessOperand (pl : List Byte) : Option (Option Nat) :=
  if pl.length ≠ 1 then none
  else if byteAt pl 0 ≤ 100 then some (some (byteAt pl 0))
  else if byteAt pl 0 = 255 then some none
  else none

end Sys2Proof.Machine
end

