-- ==== Sys2Proof/Machine/Ops.lean ====
section
/-! DEFINITION. Machine/Ops.lean: the operations shared by the commands: posting records, placing replies, exposure, key focus
and touch capture, tone ends, window removal, lapse, closing and teardown, and the arbiter. -/

namespace Sys2Proof.Machine

/-! ## Event queues (chapter 7) -/

/-- A FAILED record, the one kind that may use the two kept places (R125). -/
def EventBody.isFailed : EventBody → Bool
  | .failed _ => true
  | _ => false

/-- The queue has a place for a record (R125). -/
def hasPlace (events : List Record) (failed : Bool) : Bool :=
  decide (events.length < Config.eventPlaces)
    && (failed || decide ((events.filter (fun r => !r.body.isFailed)).length < Config.openEventPlaces))

/-- A TOUCH_MOVE. -/
def EventBody.isMove : EventBody → Bool
  | .touchMove _ => true
  | _ => false

/-- The queue after a move without a place has coalesced into the newest record, none when it cannot (R126). -/
def coalesce (events : List Record) (r : Record) : Option (List Record) :=
  match events.getLast? with
  | none => none
  | some last =>
    if r.body.isMove && last.body.isMove && !last.held && last.handle == r.handle then
      some (events.dropLast ++ [{ last with body := r.body, time := r.time }])
    else none

/-- A count that stops at 255 (R127, R169). -/
def saturate (n : Nat) : Nat := if n < 255 then n + 1 else n

/-- A record posted to a port that takes records: it joins, coalesces or is lost (R125 to R127). -/
def PortRec.join (q : PortRec) (r : Record) : PortRec :=
  if hasPlace q.events r.body.isFailed then { q with events := q.events ++ [r] }
  else match coalesce q.events r with
    | some events => { q with events := events }
    | none => { q with lost := saturate q.lost }

/-- A record posted to a port: dropped when the port is CLOSING, DETACHED or DISABLED, else handled by join, with the time
base as its timestamp (R124, R125). -/
def State.post (s : State) (p : Port) (body : EventBody) (h : Option Handle) : State :=
  if (s.port p).state.takesRecords then s.setPort p ((s.port p).join ⟨body, s.timeBase, h, false⟩) else s

/-! ## Replies (R130, R170) -/

/-- A record without its held mark (R130). -/
def Record.release (r : Record) : Record := { r with held := false }

/-- A FETCH under way whose reply has left the buffer: its end consumes nothing (R171). -/
def Transfer.cut (t : Transfer) : Transfer := { t with live := false }

/-- A reply replaces whatever the buffer held, and a replaced event reply releases its hold (R130, R170). Every reply answers a
SEND, during which data out was held at 0 (R166). -/
def PortRec.place (q : PortRec) (r : Reply) : PortRec :=
  { q with reply := some r, events := q.events.map Record.release, transfer := q.transfer.map Transfer.cut, dataOut := [] }

/-- A reply placed in a port's reply buffer (R170). -/
def State.placeReply (s : State) (p : Port) (r : Reply) : State := s.setPort p ((s.port p).place r)

/-- A NAK placed in a port's reply buffer; it changes nothing else (R104). -/
def State.nak (s : State) (p : Port) (tag : Byte) (reason : NakReason) : State :=
  s.placeReply p ⟨.nak reason, tag, .none⟩

/-- An ACK placed in a port's reply buffer. -/
def State.ack (s : State) (p : Port) (tag : Byte) (body : ReplyBody) : State := s.placeReply p ⟨.ack, tag, body⟩

/-! ## Exposure (R25) -/

/-- The windows whose class changed, each with its new class and count, in stack order. -/
def exposureChanges (old new : List Window) : List Window :=
  (old.zip new).filterMap (fun e => if e.1.exposure = e.2.exposure then none else some e.2)

/-- One EXPOSURE event, to the window's owner (R25). -/
def State.postExposure (s : State) (w : Window) : State :=
  s.post w.owner (.exposure w.exposure w.visible) (some w.handle)

/-- Exposure recomputed for every window, with an EXPOSURE event for each window whose class changed, in stack order from
the top (R25). -/
def State.recomputeExposure (s : State) : State :=
  let new := s.exposeFrom [] s.windows
  (exposureChanges s.windows new).foldl State.postExposure { s with windows := new }

/-! ## Key focus and touch capture (chapters 8 and 9) -/

/-- Key focus withdrawn to none from a window that holds it, with FOCUS_LOST to its owner (R157). -/
def State.withdrawFocus (s : State) (h : Handle) (owner : Port) (reason : FocusReason) : State :=
  if s.focus = some h then { s with focus := none }.post owner (.focusLost reason) (some h) else s

/-- The key focus window, none when there is no key focus (R153). -/
def State.focusWindow (s : State) : Option Window := s.focus.bind s.windowOf

/-- The focus rule permits focus to move to a window (R154). -/
def State.permitsFocus (s : State) (w : Window) : Bool :=
  w.shown && w.keyEligible && (s.port w.owner).state == .live
    && (match s.focusWindow with
        | none => true
        | some f => decide (f.band.rank ≤ w.band.rank) || f.owner == w.owner)

/-- Focus moved to a window: FOCUS_LOST MOVED to the old window's owner, then FOCUS_GAINED to the new one's (R154). -/
def State.moveFocus (s : State) (w : Window) : State :=
  let s1 := match s.focusWindow with
    | none => s
    | some f => s.post f.owner (.focusLost .moved) (some f.handle)
  { s1 with focus := some w.handle }.post w.owner .focusGained (some w.handle)

/-- The capture of a removed window cancelled to ORPHAN, with TOUCH_CANCEL REMOVED (R144). -/
def State.cancelRemoved (s : State) (h : Handle) (owner : Port) : State :=
  match s.capture with
  | .captured h' _ =>
    if h' = h then { s with capture := .orphan }.post owner (.touchCancel .removed) (some h) else s
  | _ => s

/-- The capture held by a window of a lapsing port cancelled to ORPHAN, with TOUCH_CANCEL LAPSED (R144). -/
def State.cancelLapsed (s : State) (p : Port) : State :=
  match s.capture with
  | .captured h owner =>
    if owner = p then { s with capture := .orphan }.post p (.touchCancel .lapsed) (some h) else s
  | _ => s

/-! ## Tones (chapter 10) -/

/-- The sounding choice made again, and the tone pair driven for it (R159). -/
def State.chooseTone (s : State) : State :=
  { s with sounding := s.soundingChoice, sounder := s.drivenPitch s.soundingChoice }

/-- A port's active request ended with a reason: its TONE_ENDED is posted if its end report is yes (R165), and the sounding
choice is made again (R159). -/
def State.endTone (s : State) (p : Port) (reason : ToneReason) : State :=
  match (s.port p).tone with
  | none => s
  | some t =>
    let s1 := s.setPort p { s.port p with tone := none }
    (if t.endReport then s1.post p (.toneEnded t.tag reason) none else s1).chooseTone

/-- A port's active request ended with a reason if its band is one of those named. -/
def State.endToneIf (s : State) (p : Port) (bands : Band → Bool) (reason : ToneReason) : State :=
  match (s.port p).tone with
  | none => s
  | some t => if bands t.band then s.endTone p reason else s

/-- A silence claim: every BASE and ALERT request ends SILENCED, in port order (R163). -/
def State.silence (s : State) : State :=
  allPorts.foldl (fun s p => s.endToneIf p (fun b => b != .critical) .silenced) s

/-! ## The stack and window removal (chapter 2) -/

/-- The stack with a window placed at the top of its band: directly below the lowest window of any higher band (R21). -/
def insertTop (w : Window) : List Window → List Window
  | [] => [w]
  | x :: xs => if x.band.rank > w.band.rank then x :: insertTop w xs else w :: x :: xs

/-- The stack with a window placed at the bottom of its band: directly above the highest window of any lower band (R21). -/
def insertBottom (w : Window) : List Window → List Window
  | [] => [w]
  | x :: xs => if x.band.rank < w.band.rank then w :: x :: xs else x :: insertBottom w xs

/-- The stack without the window of a handle; the others keep their order (R21). -/
def takeOut (h : Handle) (ws : List Window) : List Window := ws.filter (fun w => w.handle != h)

/-- A port's holdings after one of its windows is removed (R13). -/
def PortRec.giveUp (q : PortRec) (n : Nat) : PortRec :=
  { q with windowsHeld := q.windowsHeld - 1, stripsHeld := q.stripsHeld - n }

/-- A window removed, in one step (R29): it leaves the table and the stack, its slot's generation increases, its strips
retire, the owner's holdings fall, key focus and the touch capture are told, and exposure is recomputed. -/
def State.removeWindow (s : State) (w : Window) : State :=
  let s1 := { s with windows := takeOut w.handle s.windows, retiring := s.retiring ++ w.stripMap }.bumpGeneration w.handle.slot
  let s2 := s1.setPort w.owner ((s1.port w.owner).giveUp w.stripMap.length)
  ((s2.withdrawFocus w.handle w.owner .removed).cancelRemoved w.handle w.owner).recomputeExposure

/-! ## Lapse, closing and teardown (chapter 6) -/

/-- The topmost window of a port, if it owns any (R42). -/
def State.topWindow (s : State) (p : Port) : Option Window := s.windows.find? (fun w => w.owner == p)

/-- A port taken out of a window's grant list, closing up the gap (R16, R42). -/
def Window.ungrant (p : Port) (w : Window) : Window := { w with grants := w.grants.filter (fun q => q != p) }

/-- The window manager reports its part of the teardown complete once the port owns no window: the port becomes DETACHED and
its glyph bank is blanked in the same step (R5, R118). -/
def State.completeTeardown (s : State) (p : Port) : State :=
  match s.topWindow p with
  | some _ => s
  | none => s.setPort p { s.port p with state := .detached, bank := Vector.replicate 64 blankPattern }

/-- The teardown notice: the port leaves the grant list of every window (R42), and the teardown is complete at once when it
owns none (R117). -/
def State.teardownNotice (s : State) (p : Port) : State :=
  { s with windows := s.windows.map (Window.ungrant p) }.completeTeardown p

/-- A port's command queue discarded, with no report and no change to the chain outcome (R61). -/
def PortRec.discardQueue (q : PortRec) : PortRec :=
  { q with queue := [], progress := .fresh, stopMark := false, waiter := false }

/-- What a port itself gives up at its entry to CLOSING: timers and warning flag (R115, R116), brightness request and waiter
(R101), tone request (R164), event queue, lost count and reply buffer (R133). -/
def PortRec.close (q : PortRec) : PortRec :=
  { q with state := .closing, lease := 0, grace := 0, warned := false, reply := none,
           transfer := q.transfer.map Transfer.cut, events := [], lost := 0, brightness := none, waiter := false,
           tone := none }

/-- A port taken out of a key's capture (R151). -/
def KeyRec.dropPort (p : Port) (k : KeyRec) : KeyRec :=
  { k with capture := k.capture.map (fun c => { c with ports := c.ports.filter (fun q => q != p) }) }

/-- The input router's part of an entry to CLOSING: key focus and touch capture held by the port's windows end without a
record, and the port leaves every key capture (R145, R151, R157). -/
def State.closeInput (s : State) (p : Port) : State :=
  { s with
    focus := if s.focusOwner = some p then none else s.focus
    capture := match s.capture with
      | .captured h o => if o = p then .orphan else .captured h o
      | c => c
    keys := s.keys.map (KeyRec.dropPort p) }

/-- The entry of a port to CLOSING, with every block's reaction in the same step (R116): with no slice of the port in flight,
the engine discards its queue and the teardown notice follows (R61, R117). -/
def State.enterClosing (s : State) (p : Port) : State :=
  let fromLive := (s.port p).state == .live
  let s1 := ((s.setPort p (s.port p).close).closeInput p).chooseTone
  let s2 := if fromLive then s1.recomputeExposure else s1
  if s.slice = some p then s2 else (s2.setPort p (s2.port p).discardQueue).teardownNotice p

/-- The window manager's part of a port's teardown is under way: the port is CLOSING and the engine has no slice of it (R117). -/
def State.tearingDown (s : State) (p : Port) : Bool := (s.port p).state == .closing && s.slice != some p

/-- One removal of a teardown, of the topmost remaining window; the last one completes it (R42, R118). -/
def State.teardownStep (s : State) (p : Port) : State :=
  match s.topWindow p with
  | none => s
  | some w => (s.removeWindow w).completeTeardown p

/-- The removal that has waited for the slice in flight is taken, where its teardown is under way (R81). -/
def State.takeWaitingRemoval (s : State) : State :=
  match s.waitingRemoval with
  | none => s
  | some p =>
    let s1 := { s with waitingRemoval := none }
    if s1.tearingDown p then s1.teardownStep p else s1

/-- Key focus withdrawn from a window of a lapsing port (R111, R157). -/
def State.lapseFocus (s : State) (p : Port) : State :=
  match s.focusWindow with
  | none => s
  | some w => if w.owner = p then s.withdrawFocus w.handle p .lapsed else s

/-- The lapse of a port, with every block's reaction in the same step and its records in the order of R111. -/
def State.lapse (s : State) (p : Port) : State :=
  let grace := (s.portProf p).gracePeriod
  let s1 := (s.setPort p { s.port p with state := .lapsed, lease := 0, grace := grace }).post p (.leaseLapsed grace) none
  let s2 := (s1.lapseFocus p).cancelLapsed p
  (s2.endToneIf p (fun b => b == .base) .lapsed).recomputeExposure

/-! ## The arbiter (R47 to R50) -/

/-- The first port of a class from a pointer on, counted modulo 4 (R50). -/
def pickFrom (start : Port) (ok : Port → Bool) : Option Port :=
  [start, start + 1, start + 2, start + 3].find? ok

/-- The port the URGENT class would be granted (R48, R50). -/
def State.urgentPick (s : State) : Option Port := pickFrom s.urgentNext (fun p => s.eligible p && s.urgentHead p)

/-- The port the NORMAL class would be granted (R48, R50). -/
def State.normalPick (s : State) : Option Port := pickFrom s.normalNext (fun p => s.eligible p && !s.urgentHead p)

/-- A grant in the URGENT class: the head becomes IN_FLIGHT and the class's pointer moves past the port (R49, R50). -/
def State.grantUrgent (s : State) (p : Port) (run : Nat) : State :=
  { s with slice := some p, urgentNext := p + 1, urgentRun := run }

/-- A grant in the NORMAL class; the counter becomes 0 (R49, R50). -/
def State.grantNormal (s : State) (p : Port) : State := { s with slice := some p, normalNext := p + 1, urgentRun := 0 }

/-- The arbiter: with no slice in flight and a port eligible it grants the engine to one port (R49). -/
def State.arbitrate (s : State) : State :=
  match s.slice with
  | some _ => s
  | none =>
    match s.urgentPick, s.normalPick with
    | none, none => s
    | some p, none => s.grantUrgent p 0
    | some p, some n => if s.urgentRun < Config.urgentLimit then s.grantUrgent p (s.urgentRun + 1) else s.grantNormal n
    | none, some n => s.grantNormal n

/-! ## Ending a command (R55 to R57) -/

/-- The chain outcome after a command ends (R56). -/
def chainAfter (before : ChainOutcome) : Status → ChainOutcome
  | .ok => .ok
  | .aborted => before
  | _ => .failed

/-- The report of a command (R57): cells done for the six slice-based commands only. -/
def reportOf (c : QCmd) (st : Status) (res : ResultPart) (cells : Nat) : Report :=
  { tag := c.tag, kind := c.kind, status := st, report := c.report, urgent := c.urgent, chain := c.chain
    cellsDone := if sliceBased c.kind then some cells else none
    result := res }

/-- The record a command's end posts, if any: DONE if OK and REPORT is set or the command is READ_CELLS, FAILED for every
other status (R57). -/
def reportRecord (c : QCmd) (st : Status) (res : ResultPart) (cells : Nat) : Option EventBody :=
  if st = .ok then
    if c.report ∨ c.kind = .readCells then some (.done (reportOf c st res cells)) else none
  else some (.failed (reportOf c st res cells))

/-- The head leaves the queue and the next command becomes head with a fresh progress record and a clear stop mark; the chain
outcome follows the status (R45, R55, R56). -/
def PortRec.popHead (q : PortRec) (st : Status) : PortRec :=
  { q with queue := q.queue.tail, progress := .fresh, stopMark := false, waiter := false, chain := chainAfter q.chain st }

/-- A port's head command ends with a status (R55). -/
def State.endCommand (s : State) (p : Port) (c : QCmd) (st : Status) (res : ResultPart) (cells : Nat) : State :=
  let s1 := s.setPort p ((s.port p).popHead st)
  match reportRecord c st res cells with
  | none => s1
  | some body => s1.post p body none

/-! ## Slices (R51 to R54, R61, R63, R64) -/

/-- How a slice's work ends: the command ends, work remains, or a FRAME_MARK parks. -/
inductive SliceEnd where
  | ended (st : Status) (res : ResultPart) (cells : Nat) (s : State)
  | more (pr : Progress) (s : State)
  | parked (s : State)

/-- The state a slice's work leaves. -/
def SliceEnd.state : SliceEnd → State
  | .ended _ _ _ s => s
  | .more _ s => s
  | .parked s => s

/-- The status, result part and cells done with which a stop-marked command ends: ABORTED, whatever the slice would have
given; the result part only after a slice that completed all of its work (R63, R64). -/
def SliceEnd.stoppedWith : SliceEnd → ResultPart × Nat
  | .ended .ok res cells _ => (res, cells)
  | .ended _ _ cells _ => (.none, cells)
  | .more pr _ => (.none, pr.cellsDone)
  | .parked _ => (.none, 0)

/-- The end of a slice of a CLOSING port (R61): a brightness request and a tone request that the slice made end without a
record, the queue is discarded with no report, and the teardown notice follows. -/
def State.endClosingSlice (s : State) (p : Port) : State :=
  let s1 := s.setPort p { (s.port p).discardQueue with brightness := none, tone := none }
  s1.chooseTone.teardownNotice p

/-- The end of a slice of port `p` whose head is `c` (R51, R55, R61, R63): the engine has no slice in flight, the head goes on
or leaves as the slice's work says, and the arbiter makes its next grant. A removal that has waited for the slice follows its step
(R81). -/
def finishSlice (p : Port) (c : QCmd) (e : SliceEnd) : State :=
  let s := { e.state with slice := none }
  let s' :=
    if (s.port p).state = .closing then s.endClosingSlice p
    else if (s.port p).stopMark then s.endCommand p c .aborted e.stoppedWith.1 e.stoppedWith.2
    else match e with
      | .ended st res cells _ => s.endCommand p c st res cells
      | .more pr _ => s.setPort p { s.port p with progress := pr }
      | .parked _ => s.setPort p { s.port p with progress := { (s.port p).progress with started := true }, waiter := true }
  s'.arbitrate.takeWaitingRemoval

/-- A command's first slice that the chain check ends: CHAIN is set and the port's chain outcome is FAILED (R53). DESIGN CHOICE
(log 29): the check is made in the slice's step, so an ABORT taken while the first slice is in flight has set the outcome to NONE
before it, and the command runs and ends ABORTED. -/
def State.skips (s : State) (p : Port) (c : QCmd) : Bool :=
  !(s.port p).progress.started && c.chain && (s.port p).chain == .failed

/-- One slice of port `p`, served while its head is a command of kind `k` and IN_FLIGHT: the chain check, then the command's
own checks and work, then the slice's end (R51 to R53). With no such slice in flight nothing takes place (log 1). -/
def State.runSlice (s : State) (p : Port) (k : CommandKind) (work : QCmd → State → SliceEnd) : State :=
  if s.slice = some p then
    match (s.port p).queue with
    | [] => s
    | c :: _ =>
      if c.kind = k then
        finishSlice p c (if s.skips p c then .ended .skipped .none 0 s else work c s)
      else s
  else s

/-- The work of a command carried out in one slice: a failed check changes nothing (R53), success takes its effects. -/
def oneSlice (s : State) : Except Status (State × ResultPart) → SliceEnd
  | .error st => .ended st .none 0 s
  | .ok (s', res) => .ended .ok res 0 s'

end Sys2Proof.Machine
end

