-- ==== Sys2Proof/Machine/WindowCommands.lean ====
section
/-! DEFINITION. Machine/WindowCommands.lean: the meanings of the slices that create, remove, arrange and share windows
(chapter 2). -/

namespace Sys2Proof.Machine

/-- The outcome of the checks and effects of a one-slice command: a failed check's status, or the state after the effects and
the result part. -/
abbrev Effect := Except Status (State × ResultPart)

/-- The effect of a command that names one of the port's own windows by the handle at byte `i` of its payload, which has `n`
bytes in all: the handle is resolved first, then the payload's length is an operand-meaning check (R20, R174). -/
def ownWindowAt (s : State) (p : Port) (c : QCmd) (i n : Nat) (effect : Window → Effect) : Effect :=
  match s.resolveOwn p (handleAt c.payload i) with
  | .error st => .error st
  | .ok w => if c.payload.length = n then effect w else .error .badArg

/-- The effect of a command whose payload begins with the handle of one of the port's own windows (R20, R174). -/
def ownWindow (s : State) (p : Port) (c : QCmd) (n : Nat) (effect : Window → Effect) : Effect :=
  ownWindowAt s p c 0 n effect

/-! ## CREATE_WINDOW -/

/-- The lowest-numbered free slot, if the table has one (R19). -/
def State.freeSlot (s : State) : Option Nat :=
  ((List.range Config.slots).map (· + 1)).find? (fun k => s.windows.all (fun w => w.handle.slot != k))

/-- The record of a new window: the operands of the command, the defaults of Table 2-3 (R17). -/
def newWindow (h : Handle) (p : Port) (o : CreateOperands) (strips : List Nat) : Window where
  handle      := h
  owner       := p
  band        := o.band
  shown       := false
  view        := o.view
  sc          := o.sc
  sr          := o.sr
  offCol      := o.offCol
  offRow      := o.offRow
  stripMap    := strips
  curCol      := 0
  curRow      := 0
  pen         := ⟨0, 15, 0, false, false⟩
  clear       := o.clear
  wrap        := true
  autoscroll  := true
  cursorShown := false
  touchMode   := .take
  keyEligible := false
  lapsePolicy := .keep
  grants      := []
  exposure    := .none
  visible     := 0

/-- The effects of a CREATE_WINDOW that passed every check, as one step (R28). DESIGN CHOICE (log 28): for a CRITICAL window
whose owner's lapse or entry to CLOSING was taken before this step, exposure is recomputed by Table 2-4 and R25 as in every
other case, so the new window counts from class NONE and EXPOSURE events may follow. -/
def State.createAt (s : State) (p : Port) (slot : Nat) (o : CreateOperands) : State × ResultPart :=
  let n := stripsOf o.sc o.sr
  let strips := s.available.take n
  let w := newWindow ⟨slot, s.generationOf slot⟩ p o strips
  let s1 := { s with available := s.available.drop n, memory := Memory.fill s.memory strips o.clear,
                     windows := insertTop w s.windows }
  let q := s1.port p
  ((s1.setPort p { q with windowsHeld := q.windowsHeld + 1, stripsHeld := q.stripsHeld + n }).recomputeExposure,
   .handle w.handle)

/-- The checks of CREATE_WINDOW in the order of R12 and R27, and its effects. -/
def State.createWindow (s : State) (p : Port) (c : QCmd) : Effect :=
  match createOperands c.payload with
  | none => .error .badArg
  | some o =>
    if o.band.rank > (s.portProf p).maxBand.rank then .error .notPermitted
    else if !geometryOk s.prof o.sc o.sr o.view o.offCol o.offRow then .error .badGeometry
    else if (s.port p).windowsHeld + 1 > (s.portProf p).windowQuota then .error .quota
    else match s.freeSlot with
      | none => .error .noSlot
      | some slot =>
        if (s.port p).stripsHeld + stripsOf o.sc o.sr > (s.portProf p).stripQuota then .error .quota
        else if stripsOf o.sc o.sr > s.available.length then .error .noSpace
        else .ok (s.createAt p slot o)

/-- CREATE_WINDOW (R27, R28). -/
def execCreateWindow (p : Port) (s : State) : Host.Outcome State Fault Refusal :=
  .next (s.runSlice p .createWindow (fun c s => oneSlice s (s.createWindow p c)))

/-! ## Removal, placing and showing -/

/-- DESTROY_WINDOW (R29, R30). -/
def execDestroyWindow (p : Port) (s : State) : Host.Outcome State Fault Refusal :=
  .next (s.runSlice p .destroyWindow (fun c s => oneSlice s
    (ownWindow s p c 2 (fun w => .ok (s.removeWindow w, .none)))))

/-- A window with its view position, size and offset replaced together (R31). -/
def Window.placed (w : Window) (v : Rect) (offCol offRow : Nat) : Window :=
  { w with view := v, offCol := offCol, offRow := offRow }

/-- The check and effect of PLACE_WINDOW (R31). -/
def State.placeWindow (s : State) (c : QCmd) (w : Window) : Effect :=
  let v := rectAt c.payload 2
  let oc := byteAt c.payload 6
  let orow := byteAt c.payload 7
  if geometryOk s.prof w.sc w.sr v oc orow then
    .ok ((s.updateWindow w.handle (fun w => w.placed v oc orow)).recomputeExposure, .none)
  else .error .badGeometry

/-- PLACE_WINDOW (R31). -/
def execPlaceWindow (p : Port) (s : State) : Host.Outcome State Fault Refusal :=
  .next (s.runSlice p .placeWindow (fun c s => oneSlice s (ownWindow s p c 8 (s.placeWindow c))))

/-- SHOW_WINDOW (R32). -/
def execShowWindow (p : Port) (s : State) : Host.Outcome State Fault Refusal :=
  .next (s.runSlice p .showWindow (fun c s => oneSlice s (ownWindow s p c 2 (fun w =>
    .ok ((s.updateWindow w.handle (fun w => { w with shown := true })).recomputeExposure, .none)))))

/-- HIDE_WINDOW: FOCUS_LOST before the EXPOSURE events (R25, R33). -/
def execHideWindow (p : Port) (s : State) : Host.Outcome State Fault Refusal :=
  .next (s.runSlice p .hideWindow (fun c s => oneSlice s (ownWindow s p c 2 (fun w =>
    .ok (((s.updateWindow w.handle (fun w => { w with shown := false })).withdrawFocus w.handle w.owner .hidden).recomputeExposure,
         .none)))))

/-! ## The stack -/

/-- RAISE_WINDOW (R34). -/
def execRaiseWindow (p : Port) (s : State) : Host.Outcome State Fault Refusal :=
  .next (s.runSlice p .raiseWindow (fun c s => oneSlice s (ownWindow s p c 2 (fun w =>
    .ok ({ s with windows := insertTop w (takeOut w.handle s.windows) }.recomputeExposure, .none)))))

/-- LOWER_WINDOW (R34). -/
def execLowerWindow (p : Port) (s : State) : Host.Outcome State Fault Refusal :=
  .next (s.runSlice p .lowerWindow (fun c s => oneSlice s (ownWindow s p c 2 (fun w =>
    .ok ({ s with windows := insertBottom w (takeOut w.handle s.windows) }.recomputeExposure, .none)))))

/-- The checks and effect of SET_BAND (R35). -/
def State.setBand (s : State) (p : Port) (c : QCmd) (w : Window) : Effect :=
  match bandOf (byteAt c.payload 2) with
  | none => .error .badArg
  | some b =>
    if b.rank > (s.portProf p).maxBand.rank then .error .notPermitted
    else .ok ({ s with windows := insertTop { w with band := b } (takeOut w.handle s.windows) }.recomputeExposure, .none)

/-- SET_BAND (R35). -/
def execSetBand (p : Port) (s : State) : Host.Outcome State Fault Refusal :=
  .next (s.runSlice p .setBand (fun c s => oneSlice s (ownWindow s p c 3 (s.setBand p c))))

/-! ## Modes -/

/-- Every present operand's field takes its value; absent operands leave theirs (R36). -/
def Window.withModes (w : Window) (o : ModeOperands) : Window :=
  { w with
    wrap := o.wrap.getD w.wrap
    autoscroll := o.autoscroll.getD w.autoscroll
    cursorShown := o.cursorShown.getD w.cursorShown
    touchMode := o.touchMode.getD w.touchMode
    keyEligible := o.keyEligible.getD w.keyEligible
    lapsePolicy := o.lapsePolicy.getD w.lapsePolicy
    clear := o.clear.getD w.clear }

/-- The owner is silent: LAPSED or CLOSING (R22, R36). -/
def PortState.silent : PortState → Bool
  | .lapsed => true
  | .closing => true
  | _ => false

/-- The effects of SET_WINDOW_MODES: focus is withdrawn when key eligible becomes no, and exposure is recomputed only when the
lapse policy changes while the owner is LAPSED or CLOSING (R25, R36). -/
def State.setModes (s : State) (w : Window) (o : ModeOperands) : State :=
  let s1 := s.updateWindow w.handle (fun w => w.withModes o)
  let s2 := if (w.withModes o).keyEligible then s1 else s1.withdrawFocus w.handle w.owner .modes
  if (w.withModes o).lapsePolicy ≠ w.lapsePolicy ∧ (s.port w.owner).state.silent then s2.recomputeExposure else s2

/-- SET_WINDOW_MODES (R36), whose handle stands after its presence byte (R174, log 30). -/
def execSetWindowModes (p : Port) (s : State) : Host.Outcome State Fault Refusal :=
  .next (s.runSlice p .setWindowModes (fun c s => oneSlice s (ownWindowAt s p c 1 c.payload.length (fun w =>
    match modeOperands c.payload with
    | none => .error .badArg
    | some o => .ok (s.setModes w o, .none)))))

/-! ## Grants and queries -/

/-- The checks and effect of GRANT_READ, in the order of R37. -/
def State.grantRead (s : State) (c : QCmd) (w : Window) : Effect :=
  match portOf (byteAt c.payload 2) with
  | none => .error .badArg
  | some g =>
    if g = w.owner then .error .badArg
    else if !(s.port g).state.takesRecords then .error .badArg
    else if g ∈ w.grants then .ok (s, .none)
    else .ok (s.updateWindow w.handle (fun w => { w with grants := w.grants ++ [g] }), .none)

/-- GRANT_READ (R37). -/
def execGrantRead (p : Port) (s : State) : Host.Outcome State Fault Refusal :=
  .next (s.runSlice p .grantRead (fun c s => oneSlice s (ownWindow s p c 3 (s.grantRead c))))

/-- REVOKE_READ (R38). -/
def execRevokeRead (p : Port) (s : State) : Host.Outcome State Fault Refusal :=
  .next (s.runSlice p .revokeRead (fun c s => oneSlice s (ownWindow s p c 3 (fun w =>
    match portOf (byteAt c.payload 2) with
    | none => .error .badArg
    | some g => .ok (s.updateWindow w.handle (Window.ungrant g), .none)))))

/-- QUERY_WINDOW, of an owned or granted window (R20, R39). -/
def execQueryWindow (p : Port) (s : State) : Host.Outcome State Fault Refusal :=
  .next (s.runSlice p .queryWindow (fun c s => oneSlice s
    (match s.resolveRead p (handleAt c.payload 0) with
     | .error st => .error st
     | .ok w => if c.payload.length = 2 then .ok (s, .window w) else .error .badArg)))

end Sys2Proof.Machine
end

