-- ==== Sys2Proof/Machine/DrawingCommands.lean ====
section
/-! DEFINITION. Machine/DrawingCommands.lean: the meanings of the slices that set pens and cursors, write, fill, copy, shift and
read cells, and load glyphs (chapter 4). -/

namespace Sys2Proof.Machine

/-! ## Pen and cursor -/

/-- SET_PEN (R69). -/
def execSetPen (p : Port) (s : State) : Host.Outcome State Fault Refusal :=
  .next (s.runSlice p .setPen (fun c s => oneSlice s (ownWindow s p c 5 (fun w =>
    if glyphOk (cellAt c.payload 2) then
      .ok (s.updateWindow w.handle (fun w => { w with pen := cellAt c.payload 2 }), .none)
    else .error .badArg))))

/-- SET_CURSOR (R70). -/
def execSetCursor (p : Port) (s : State) : Host.Outcome State Fault Refusal :=
  .next (s.runSlice p .setCursor (fun c s => oneSlice s (ownWindow s p c 4 (fun w =>
    if byteAt c.payload 2 < w.sc ∧ byteAt c.payload 3 < w.sr then
      .ok (s.updateWindow w.handle (fun w => { w with curCol := byteAt c.payload 2, curRow := byteAt c.payload 3 }), .none)
    else .error .badGeometry))))

/-! ## WRITE_TEXT (R71 to R75) -/

/-- A WRITE_TEXT slice under way: the window with its text cursor, the strip memory, the next item, the marks of R75, the
cells counted in this slice and the units done in it. -/
structure TextRun where
  win          : Window
  memory       : Memory
  next         : Nat
  owed         : Bool
  discarding   : Bool
  overflowDone : Bool
  count        : Nat
  units        : Nat
  finished     : Bool
  deriving DecidableEq, Repr

/-- The cell a text item writes: its glyph code with the pen's colours and flags (R69, R72). -/
def penCell (pen : Cell) (code : Nat) : Cell := { pen with glyph := code }

/-- The memory with a cell written at the text cursor. -/
def TextRun.writeCursor (r : TextRun) (v : Cell) : Memory :=
  Memory.setCell r.memory r.win.stripMap r.win.sc r.win.curCol r.win.curRow v

/-- The cells a line advance counts: SC when it scrolls, else 0 (R74). -/
def advanceCost (w : Window) : Nat := if w.sr ≤ w.curRow + 1 ∧ w.autoscroll then w.sc else 0

/-- A line advance (R74). -/
def TextRun.advance (r : TextRun) : TextRun :=
  let r' := { r with owed := false, count := r.count + advanceCost r.win, units := r.units + 1 }
  if r.win.curRow + 1 < r.win.sr then { r' with win := { r.win with curCol := 0, curRow := r.win.curRow + 1 } }
  else if r.win.autoscroll then
    { r' with win := { r.win with curCol := 0 }
              memory := Memory.scroll r.memory r.win.stripMap r.win.sc r.win.clear }
  else { r' with win := { r.win with curCol := 0, curRow := 0 } }

/-- A glyph item outside the discarding state: the cell is written, and the cursor moves right, owes a line advance or enters
the discarding state (R72). -/
def TextRun.glyph (r : TextRun) (code : Nat) : TextRun :=
  let r' := { r with memory := r.writeCursor (penCell r.win.pen code), next := r.next + 1, count := r.count + 1,
                     units := r.units + 1 }
  if r.win.curCol + 1 < r.win.sc then { r' with win := { r.win with curCol := r.win.curCol + 1 } }
  else if r.win.wrap then { r' with owed := true }
  else { r' with discarding := true, overflowDone := false }

/-- A glyph item in the discarding state: the first one writes the overflow mark if the pen has one; all are counted (R72,
R73). -/
def TextRun.discard (r : TextRun) : TextRun :=
  { r with
    memory := if !r.overflowDone && decide (r.win.pen.glyph ≠ 0) then r.writeCursor r.win.pen else r.memory
    overflowDone := true
    next := r.next + 1
    count := r.count + 1
    units := r.units + 1 }

/-- The cells an item counts (R72 to R74). -/
def itemCost (w : Window) : TextItem → Nat
  | .glyph _ => 1
  | .newLine => advanceCost w
  | .return => 0

/-- One item (R72 to R74). -/
def TextRun.item (r : TextRun) : TextItem → TextRun
  | .glyph code => if r.discarding then r.discard else r.glyph code
  | .newLine => { r with next := r.next + 1, discarding := false, overflowDone := false }.advance
  | .return =>
    { r with next := r.next + 1, units := r.units + 1, discarding := false, overflowDone := false,
             win := { r.win with curCol := 0 } }

/-- The next unit would bring the slice's count above 64; a unit that alone counts more is done alone in a slice (R52, R75). -/
def TextRun.blocked (r : TextRun) (cost : Nat) : Bool := decide (r.units > 0) && decide (r.count + cost > Config.sliceCells)

/-- The units of one slice, in order: an owed line advance first, then the items (R75). -/
def textLoop (items : List TextItem) : Nat → TextRun → TextRun
  | 0, r => r
  | n + 1, r =>
    if r.owed then (if r.blocked (advanceCost r.win) then r else textLoop items n r.advance)
    else match items[r.next]? with
      | none => { r with finished := true }
      | some it => if r.blocked (itemCost r.win it) then r else textLoop items n (r.item it)

/-- The most units a WRITE_TEXT can have, and one more to find its end: an item and an owed advance for each of 254 items. -/
def textFuel : Nat := 509

/-- The slice of a WRITE_TEXT over its items; the window's text cursor holds the position after the last unit done (R75). -/
def State.writeText (s : State) (pr : Progress) (w : Window) (items : List TextItem) : SliceEnd :=
  let r := textLoop items textFuel
    { win := w, memory := s.memory, next := pr.next, owed := pr.owed, discarding := pr.discarding,
      overflowDone := pr.overflowDone, count := 0, units := 0, finished := false }
  let s' := { s with memory := r.memory }.updateWindow w.handle
    (fun x => { x with curCol := r.win.curCol, curRow := r.win.curRow })
  let cells := pr.cellsDone + r.count
  if r.finished then .ended .ok .none cells s'
  else .more { pr with started := true, next := r.next, cellsDone := cells, owed := r.owed, discarding := r.discarding,
                       overflowDone := r.overflowDone } s'

/-- The slice of a command that writes one of the port's own windows: the handle is resolved at every slice (R54), and an
ending at a check keeps the cells of the earlier slices. -/
def ownDrawing (s : State) (p : Port) (c : QCmd) (work : Progress → Window → SliceEnd) : SliceEnd :=
  let pr := (s.port p).progress
  match s.resolveOwn p (handleAt c.payload 0) with
  | .error st => .ended st .none pr.cellsDone s
  | .ok w => work pr w

/-- WRITE_TEXT (R71). -/
def execWriteText (p : Port) (s : State) : Host.Outcome State Fault Refusal :=
  .next (s.runSlice p .writeText (fun c s => ownDrawing s p c (fun pr w =>
    match textOperands c.payload with
    | none => .ended .badArg .none pr.cellsDone s
    | some items => s.writeText pr w items)))

/-! ## Rectangles (R67) -/

/-- The place of unit `n` of a rectangle of `area` cells in forward order, or in backward order, its exact reverse (R67). -/
def unitIndex (backward : Bool) (area n : Nat) : Nat := if backward then area - 1 - n else n

/-- The column of cell `n`, in forward order, of a rectangle (R67). -/
def colOf (r : Rect) (n : Nat) : Nat := r.col + n % r.w

/-- The row of cell `n`, in forward order, of a rectangle (R67). -/
def rowOf (r : Rect) (n : Nat) : Nat := r.row + n / r.w

/-- The units of a slice over a rectangle of `area` cells from unit `next` on: at most 64 (R52). -/
def sliceUnits (area next : Nat) : List Nat := List.range' next (min Config.sliceCells (area - next))

/-- A slice over a rectangle of `area` cells: it applies `write` for each of its units in order, then the command goes on or
ends OK with all its cells done (R52). -/
def State.rectSlice (s : State) (pr : Progress) (backward : Bool) (area : Nat) (write : Memory → Nat → Memory) : SliceEnd :=
  let units := sliceUnits area pr.next
  let s' := { s with memory := units.foldl (fun m n => write m (unitIndex backward area n)) s.memory }
  let next := pr.next + units.length
  if area ≤ next then .ended .ok .none next s'
  else .more { pr with started := true, next := next, cellsDone := next, backward := backward } s'

/-- PUT_CELLS (R76). -/
def execPutCells (p : Port) (s : State) : Host.Outcome State Fault Refusal :=
  .next (s.runSlice p .putCells (fun c s => ownDrawing s p c (fun pr w =>
    match putOperands c.payload with
    | none => .ended .badArg .none pr.cellsDone s
    | some (r, cs) =>
      if rectOk w.sc w.sr r then
        s.rectSlice pr false (r.w * r.h) (fun m n =>
          Memory.setCell m w.stripMap w.sc (colOf r n) (rowOf r n) (cs.getD n Cell.blank))
      else .ended .badGeometry .none pr.cellsDone s)))

/-- FILL_RECT (R77). -/
def execFillRect (p : Port) (s : State) : Host.Outcome State Fault Refusal :=
  .next (s.runSlice p .fillRect (fun c s => ownDrawing s p c (fun pr w =>
    match fillOperands c.payload with
    | none => .ended .badArg .none pr.cellsDone s
    | some (r, v) =>
      if rectOk w.sc w.sr r then
        s.rectSlice pr false (r.w * r.h) (fun m n => Memory.setCell m w.stripMap w.sc (colOf r n) (rowOf r n) v)
      else .ended .badGeometry .none pr.cellsDone s)))

/-! ## COPY_RECT (R78 to R81) -/

/-- The target rectangle of a COPY_RECT: the source's size at the target position (R78). -/
def copyTarget (pl : List Byte) : Rect := ⟨byteAt pl 8, byteAt pl 9, byteAt pl 4, byteAt pl 5⟩

/-- A copy within one window runs in backward order when its target position lies after the source's top-left cell in row-major
order; every other copy runs forward (R79). -/
def copyBackward (sameWindow : Bool) (src dst : Rect) : Bool :=
  sameWindow && (decide (src.row < dst.row) || (decide (src.row = dst.row) && decide (src.col < dst.col)))

/-- The checks of the first slice that come after the target's resolution, in the order of R78: the source's resolution, the
payload's length, and the two rectangles. -/
def State.copyFirstChecks (s : State) (p : Port) (c : QCmd) (w : Window) : Except Status Window :=
  match s.resolveRead p (handleAt c.payload 0) with
  | .error st => .error st
  | .ok src =>
    if c.payload.length ≠ 10 then .error .badArg
    else if rectOk src.sc src.sr (rectAt c.payload 2) && rectOk w.sc w.sr (copyTarget c.payload) then .ok src
    else .error .badGeometry

/-- The source checks of a later slice, in the order of R54: stale, not granted, rectangle no longer inside. -/
def State.copyLaterChecks (s : State) (p : Port) (c : QCmd) : Except Status Window :=
  match s.windowOf (handleAt c.payload 0) with
  | none => .error .sourceLost
  | some src =>
    if src.owner ≠ p ∧ p ∉ src.grants then .error .notPermitted
    else if rectOk src.sc src.sr (rectAt c.payload 2) then .ok src
    else .error .sourceLost

/-- The copying of a slice: each unit reads one source cell and writes it, unchanged, at the same offset in the target (R78),
reading the cells as they stand (R80). -/
def State.copySlice (s : State) (pr : Progress) (w src : Window) (pl : List Byte) (backward : Bool) : SliceEnd :=
  let a := rectAt pl 2
  let b := copyTarget pl
  s.rectSlice pr backward (a.w * a.h) (fun m n =>
    Memory.setCell m w.stripMap w.sc (colOf b n) (rowOf b n)
      (Memory.cell m src.stripMap src.sc (colOf a n) (rowOf a n)))

/-- COPY_RECT: the target's handle stands after the source's handle and rectangle (R78). -/
def execCopyRect (p : Port) (s : State) : Host.Outcome State Fault Refusal :=
  .next (s.runSlice p .copyRect (fun c s =>
    let pr := (s.port p).progress
    match s.resolveOwn p (handleAt c.payload 6) with
    | .error st => .ended st .none pr.cellsDone s
    | .ok w =>
      match (if pr.started then s.copyLaterChecks p c else s.copyFirstChecks p c w) with
      | .error st => .ended st .none pr.cellsDone s
      | .ok src =>
        s.copySlice pr w src c.payload
          (if pr.started then pr.backward
           else copyBackward (src.handle == w.handle) (rectAt c.payload 2) (copyTarget c.payload))))

/-! ## SHIFT_RECT (R82, R83) -/

/-- The value SHIFT_RECT gives cell (c, r) of its rectangle: the cell it moves there from inside the rectangle, else the clear
cell (R83). -/
def shiftValue (m : Memory) (w : Window) (rect : Rect) (dr dc : Int) (c r : Nat) : Cell :=
  let sc := (c : Int) - dc
  let sr := (r : Int) - dr
  if 0 ≤ sc ∧ 0 ≤ sr ∧ contains rect sc.toNat sr.toNat then Memory.cell m w.stripMap w.sc sc.toNat sr.toNat else w.clear

/-- A shift works in backward order when it moves content down, or right within the rows (R83). -/
def shiftBackward (dr dc : Int) : Bool := decide (0 < dr) || (decide (dr = 0) && decide (0 < dc))

/-- SHIFT_RECT (R82, R83). -/
def execShiftRect (p : Port) (s : State) : Host.Outcome State Fault Refusal :=
  .next (s.runSlice p .shiftRect (fun c s => ownDrawing s p c (fun pr w =>
    match shiftOperands c.payload with
    | none => .ended .badArg .none pr.cellsDone s
    | some (r, dr, dc) =>
      if rectOk w.sc w.sr r then
        s.rectSlice pr (shiftBackward dr dc) (r.w * r.h) (fun m n =>
          Memory.setCell m w.stripMap w.sc (colOf r n) (rowOf r n) (shiftValue m w r dr dc (colOf r n) (rowOf r n)))
      else .ended .badGeometry .none pr.cellsDone s)))

/-! ## READ_CELLS and LOAD_GLYPHS -/

/-- READ_CELLS, of an owned or granted window (R84). -/
def execReadCells (p : Port) (s : State) : Host.Outcome State Fault Refusal :=
  .next (s.runSlice p .readCells (fun c s =>
    match s.resolveRead p (handleAt c.payload 0) with
    | .error st => .ended st .none 0 s
    | .ok w =>
      match readOperands c.payload with
      | none => .ended .badArg .none 0 s
      | some (col, row, n) =>
        if row < w.sr ∧ col + n ≤ w.sc then
          .ended .ok (.cells ((List.range n).map (fun i => s.cellOf w (col + i) row))) n s
        else .ended .badGeometry .none 0 s))

/-- A bank with consecutive patterns replaced from an index on, each whole (R85). -/
def loadPatterns (bank : Vector Pattern 64) : Nat → List Pattern → Vector Pattern 64
  | _, [] => bank
  | i, x :: xs => loadPatterns (bank.setIfInBounds i x) (i + 1) xs

/-- LOAD_GLYPHS (R85). -/
def execLoadGlyphs (p : Port) (s : State) : Host.Outcome State Fault Refusal :=
  .next (s.runSlice p .loadGlyphs (fun c s => oneSlice s
    (match glyphOperands c.payload with
     | none => .error .badArg
     | some (first, ps) =>
       .ok (s.setPort p { s.port p with bank := loadPatterns (s.port p).bank first ps }, .none))))

end Sys2Proof.Machine
end

