-- ==== Sys2Proof/Machine/PanelCommands.lean ====
section
/-! DEFINITION. Machine/PanelCommands.lean: the meanings of the slices that ask for key focus, tones, brightness and frame
marks (chapters 5, 9 and 10). -/

namespace Sys2Proof.Machine

/-! ## Key focus -/

/-- REQUEST_FOCUS: no change when the window already holds focus, DENIED when the focus rule refuses (R155). -/
def State.requestFocus (s : State) (w : Window) : Effect :=
  if s.focus = some w.handle then .ok (s, .none)
  else if s.permitsFocus w then .ok (s.moveFocus w, .none)
  else .error .denied

/-- REQUEST_FOCUS (R155). -/
def execRequestFocus (p : Port) (s : State) : Host.Outcome State Fault Refusal :=
  .next (s.runSlice p .requestFocus (fun c s => oneSlice s (ownWindow s p c 2 s.requestFocus)))

/-- RELEASE_FOCUS: focus becomes none when the port's window holds it (R156). -/
def State.releaseFocus (s : State) (p : Port) : State :=
  match s.focusWindow with
  | none => s
  | some w => if w.owner = p then s.withdrawFocus w.handle p .released else s

/-- RELEASE_FOCUS (R156). -/
def execReleaseFocus (p : Port) (s : State) : Host.Outcome State Fault Refusal :=
  .next (s.runSlice p .releaseFocus (fun c s => oneSlice s
    (if c.payload.length = 0 then .ok (s.releaseFocus p, .none) else .error .badArg)))

/-! ## Tones -/

/-- The request that a TONE_START starts, with age 0 and the next start sequence number (R158, R160). -/
def newTone (o : ToneOperands) (seq : Nat) : Tone where
  pattern   := o.pattern
  pitch     := o.pitch
  band      := o.band
  duration  := o.duration
  tag       := o.tag
  endReport := o.endReport
  seq       := seq
  age       := 0

/-- A request made active, and the sounding choice made again (R159, R160). -/
def State.beginTone (s : State) (p : Port) (o : ToneOperands) : State :=
  { s.setPort p { s.port p with tone := some (newTone o s.toneSeq) } with toneSeq := s.toneSeq + 1 }.chooseTone

/-- The effects of TONE_START: an active request ends REPLACED, the new one starts, and a BASE request of a port that has
lapsed in the meantime ends LAPSED in the same step (R160). -/
def State.startTone (s : State) (p : Port) (o : ToneOperands) : State :=
  let s1 := (s.endTone p .replaced).beginTone p o
  if (s.port p).state = .lapsed ∧ o.band = .base then s1.endTone p .lapsed else s1

/-- TONE_START (R160). -/
def execToneStart (p : Port) (s : State) : Host.Outcome State Fault Refusal :=
  .next (s.runSlice p .toneStart (fun c s => oneSlice s
    (match toneOperands c.payload with
     | none => .error .badArg
     | some o =>
       if o.band.rank > (s.portProf p).maxBand.rank then .error .notPermitted else .ok (s.startTone p o, .none))))

/-- TONE_STOP (R161). -/
def execToneStop (p : Port) (s : State) : Host.Outcome State Fault Refusal :=
  .next (s.runSlice p .toneStop (fun c s => oneSlice s
    (if c.payload.length = 0 then .ok (s.endTone p .stopped, .none) else .error .badArg)))

/-! ## Brightness and frame marks -/

/-- SET_BRIGHTNESS (R98). -/
def execSetBrightness (p : Port) (s : State) : Host.Outcome State Fault Refusal :=
  .next (s.runSlice p .setBrightness (fun c s => oneSlice s
    (match brightnessOperand c.payload with
     | none => .error .badArg
     | some b => .ok (s.setPort p { s.port p with brightness := b }, .none))))

/-- FRAME_MARK: its slice registers the waiter and parks the head (R58). -/
def execFrameMark (p : Port) (s : State) : Host.Outcome State Fault Refusal :=
  .next (s.runSlice p .frameMark (fun c s =>
    if c.payload.length = 0 then .parked s else .ended .badArg .none 0 s))

end Sys2Proof.Machine
end

