-- ==== Sys2Proof/Machine/Compositor.lean ====
section
/-! DEFINITION. Machine/Compositor.lean: the meanings of FRAME_START and SCAN_ROW_FETCH: the latch, brightness, frame marks, the
visible map and the rendering of cells and cursor (chapter 5). -/

namespace Sys2Proof.Machine

/-! ## The frame start (R90) -/

/-- A window as the composition list holds it (R26, R90). -/
def latchWindow (w : Window) (r : Rendering) : LatchedWindow where
  handle    := w.handle
  owner     := w.owner
  band      := w.band
  view      := w.view
  offCol    := w.offCol
  offRow    := w.offRow
  rendering := r
  sc        := w.sc
  stripMap  := w.stripMap

/-- What is latched of the key focus window (R90). -/
def latchFocus (w : Window) : LatchedFocus where
  handle      := w.handle
  curCol      := w.curCol
  curRow      := w.curRow
  cursorShown := w.cursorShown
  fg          := w.pen.fg

/-- The composition list as it stands: the composed-shown windows in stack order, and the key focus (R26, R90). -/
def State.composition (s : State) : Latched where
  windows := s.windows.filterMap (fun w => (s.rendering w).map (latchWindow w))
  focus   := s.focusWindow.map latchFocus

/-- The brightness levels asked for by LIVE ports (R99). -/
def State.liveLevels (s : State) : List Nat :=
  allPorts.filterMap (fun p => if (s.port p).state = .live then (s.port p).brightness else none)

/-- The first stage of R99: the highest level asked for by a LIVE port, else the profile's default. -/
def State.askedBrightness (s : State) : Nat :=
  match s.liveLevels with
  | [] => s.prof.defaultBrightness
  | b :: bs => bs.foldl max b

/-- The effective brightness for a list (R99): raised to the critical floor while the list holds a CRITICAL window. -/
def State.effectiveBrightness (s : State) (l : Latched) : Nat :=
  if l.windows.any (fun w => w.band == .critical) then max s.askedBrightness s.prof.criticalFloor else s.askedBrightness

/-- A FRAME_MARK waiter completed: the port's head ends OK with the number of the frame that has just started (R58, R96). -/
def State.completeMark (s : State) (p : Port) : State :=
  if (s.port p).waiter then
    match (s.port p).queue with
    | [] => s
    | c :: _ => s.endCommand p c .ok (.frame s.frameNumber) 0
  else s

/-- The frame start as one step of the compositor (R90): counts advance, the list is latched, retiring strips become available
(R11), brightness is applied, waiters are completed, and the scan begins again at row 0. The arbiter then serves ports whose
head has changed (R47, R49). -/
def State.frameStart (s : State) : State :=
  let l := s.composition
  let s1 := { s with
    frameNumber := s.frameNumber + 1
    blinkCount := (s.blinkCount + 1) % 60
    latched := some l
    available := s.available ++ s.retiring
    retiring := []
    brightness := s.effectiveBrightness l
    scanRow := 0 }
  (allPorts.foldl State.completeMark s1).arbitrate

/-- FRAME_START; while the device is not READY the compositor makes none (R89). -/
def execFrameStart (s : State) : Host.Outcome State Fault Refusal :=
  .next (if s.device = .ready then s.frameStart else s)

/-! ## Rendering (R92 to R95) -/

/-- A frame whose blink count is 1 to 30 is an on frame (R91). -/
def State.onFrame (s : State) : Bool := decide (1 ≤ s.blinkCount) && decide (s.blinkCount ≤ 30)

/-- The latched window a screen cell takes its value from: the topmost whose view contains it (R23, R94). -/
def Latched.at (l : Latched) (c r : Nat) : Option LatchedWindow := l.windows.find? (fun w => contains w.view c r)

/-- The cell value of a screen cell, by the visible map of the latched list (R23, R94). -/
def State.screenCell (s : State) (l : Latched) (c r : Nat) : Cell :=
  match l.at c r with
  | none => s.prof.deskCell
  | some w =>
    match w.rendering with
    | .mark => s.prof.lapseCell
    | .normal => Memory.cell s.memory w.stripMap w.sc (w.offCol + c - w.view.col) (w.offRow + r - w.view.row)

/-- Alternate pixels set in a checker pattern (R2); which of the two checkers it is stands free (log 4). -/
def checkerPattern : Pattern :=
  Vector.ofFn (fun k : Fin 16 => if (k.val % 2 == 0) == Config.checkerFirst then 0xAA#8 else 0x55#8)

/-- A centred dot of one pixel, in one of the two middle columns and one of the two middle rows (Table 1-2); which of them
stands free (log 4). -/
def dotPattern : Pattern :=
  Vector.ofFn (fun k : Fin 16 =>
    if k.val = (if Config.dotUpper then 7 else 8) then (if Config.dotLeft then 0x10#8 else 0x08#8) else 0#8)

/-- A fill of the leftmost `n` pixel columns. -/
def leftFill (n : Nat) : Pattern := Vector.replicate 16 (0xFF#8 <<< (8 - n))

/-- A fill of the rightmost `n` pixel columns. -/
def rightFill (n : Nat) : Pattern := Vector.replicate 16 (0xFF#8 >>> (8 - n))

/-- A fill of the pixel rows that `inside` picks. -/
def rowFill (inside : Nat → Bool) : Pattern := Vector.ofFn (fun k : Fin 16 => if inside k.val then 0xFF#8 else 0#8)

/-- The bar segments, 32 patterns in the order of Table 1-2: left fills of 1 to 8 columns, bottom fills of 2 to 16 rows in steps
of 2, then the same fills right-aligned and top-aligned. DEDUCED (log 4): each fill's sizes rise with the code. -/
def barSegment (n : Nat) : Pattern :=
  if n < 8 then leftFill (n + 1)
  else if n < 16 then rowFill (fun y => decide (16 ≤ y + 2 * (n - 7)))
  else if n < 24 then rightFill (n - 15)
  else rowFill (fun y => decide (y < 2 * (n - 23)))

/-- The pattern of a built-in glyph code (R2, Table 1-2): codes 0 and 32 are all clear, 127 is the centred dot, 177 the checker,
180 the full block and 181 to 212 the bar segments; the others are free values (log 4). -/
def builtinGlyph (code : Nat) : Pattern :=
  if code = 0 ∨ code = 32 then blankPattern
  else if code = 127 then dotPattern
  else if code = 177 then checkerPattern
  else if code = 180 then Vector.replicate 16 0xFF#8
  else if 181 ≤ code ∧ code ≤ 212 then barSegment (code - 181)
  else Config.builtinPattern code

/-- The pattern that a cell's glyph code selects: a built-in one, or one of the bank of the owner of the window it came from,
as the bank stands at the moment (R3, R93). -/
def State.patternOf (s : State) (owner : Option Port) (code : Nat) : Pattern :=
  if code < 256 then builtinGlyph code
  else match owner with
    | none => blankPattern
    | some p => (s.port p).bank.toList.getD (code - 256) blankPattern

/-- A screen cell fetched for the row buffer (R92). -/
def State.fetchCell (s : State) (l : Latched) (c r : Nat) : FetchedCell :=
  let v := s.screenCell l c r
  ⟨v, s.patternOf ((l.at c r).map (·.owner)) v.glyph⟩

/-- Pixel `x` of a pattern row is set; the leftmost is the most significant bit (R4, R174). -/
def pixelSet (row : Byte) (x : Nat) : Bool := row.getLsbD (7 - x)

/-- The colour of a pixel of a cell (R93, Table 5-1). -/
def pixelColour (palette : Vector Colour 16) (onFrame : Bool) (f : FetchedCell) (x y : Nat) : Colour :=
  let ink := palette.get (if f.cell.inverse then f.cell.bg else f.cell.fg)
  let paper := palette.get (if f.cell.inverse then f.cell.fg else f.cell.bg)
  if f.cell.blink && !onFrame then paper
  else if pixelSet (f.pattern.toList.getD y 0) x then ink else paper

/-- The screen column and colour index of the text cursor on a screen row, when it is drawn there (R95). -/
def State.cursorOn (s : State) (l : Latched) (r : Nat) : Option (Nat × Fin 16) :=
  match l.focus with
  | none => none
  | some f =>
    match l.windows.find? (fun w => w.handle == f.handle) with
    | none => none
    | some w =>
      let c := w.view.col + (f.curCol - w.offCol)
      let row := w.view.row + (f.curRow - w.offRow)
      if w.rendering = .normal ∧ f.cursorShown ∧ w.offCol ≤ f.curCol ∧ f.curCol - w.offCol < w.view.w
          ∧ w.offRow ≤ f.curRow ∧ f.curRow - w.offRow < w.view.h ∧ row = r
          ∧ (l.at c row).map (·.handle) = some f.handle ∧ s.onFrame then
        some (c, f.fg)
      else none

/-- One pixel row of a screen row drawn from the fetched values, with the cursor over pixel rows 14 and 15 (R92, R93, R95). -/
def drawPixelRow (palette : Vector Colour 16) (onFrame : Bool) (cursor : Option (Nat × Fin 16)) (cells : List FetchedCell)
    (y : Nat) : List Colour :=
  (cells.zipIdx.map (fun e => (List.range 8).map (fun x =>
    match cursor with
    | some (c, fg) => if c = e.2 ∧ 14 ≤ y then palette.get fg else pixelColour palette onFrame e.1 x y
    | none => pixelColour palette onFrame e.1 x y))).flatten

/-- The next screen row of the scan fetched and drawn (R92). -/
def State.scanNextRow (s : State) (l : Latched) : State :=
  let cells := (List.range s.prof.gridCols).map (fun c => s.fetchCell l c s.scanRow)
  { s with
    rowBuffer := cells
    pixelRows := (List.range 16).map (drawPixelRow s.prof.palette s.onFrame (s.cursorOn l s.scanRow) cells)
    scanRow := s.scanRow + 1 }

/-- SCAN_ROW_FETCH: the rows are scanned from row 0 to the last after each frame start, each once in a frame (R92); before the
first frame start, and after the last row of a frame, there is no row to fetch. -/
def execScanRowFetch (s : State) : Host.Outcome State Fault Refusal :=
  .next (match s.latched with
    | none => s
    | some l => if s.device = .ready ∧ s.scanRow < s.prof.gridRows then s.scanNextRow l else s)

end Sys2Proof.Machine
end

