-- ==== Sys2Proof/Machine/Links.lean ====
section
/-! DEFINITION. Machine/Links.lean: the meanings of the transactions of the host links (chapters 6, 7 and 11). -/

namespace Sys2Proof.Machine

/-! ## The common answers (R104, R179) -/

/-- A frame that passed the link checks, answered by the device state and then by its own rule: nothing while the part is held
in reset (R178), NAK_STARTING while STARTING (R179). -/
def State.answer (s : State) (p : Port) (tag : Byte) (byState : State) : State :=
  match s.device with
  | .held => s
  | .starting => s.nak p tag .starting
  | .ready => byState

/-! ## ATTACH, RENEW, DETACH (chapter 6) -/

/-- A session started on a DETACHED port: the parts of its record that ATTACH sets (R105). -/
def PortRec.startSession (q : PortRec) (leasePeriod : Nat) : PortRec :=
  { q with state := .live, epoch := q.epoch + 1, lease := leasePeriod, grace := 0, warned := false, errors := 0,
           duplicate := none, chain := .none }

/-- ATTACH by port state (R105, R106, Table 6-2). -/
def State.takeAttach (s : State) (p : Port) (tag : Byte) : State :=
  match (s.port p).state with
  | .disabled => s.nak p tag .disabled
  | .detached =>
    let s1 := s.setPort p ((s.port p).startSession (s.portProf p).leasePeriod)
    s1.ack p tag (.attach (s1.port p).epoch s.prof.gridCols s.prof.gridRows (s.portProf p))
  | .live => s.nak p tag .state
  | .lapsed => s.nak p tag .state
  | .closing => s.nak p tag .busy

/-- ATTACH (R105, R106). -/
def execAttach (p : Port) (tag : Byte) (s : State) : Host.Outcome State Fault Refusal :=
  .next (s.answer p tag (s.takeAttach p tag))

/-- The lease restarted at its full length, the grace timer stopped and the warning flag cleared (R109, R113). -/
def PortRec.renewLease (q : PortRec) (leasePeriod : Nat) : PortRec :=
  { q with state := .live, lease := leasePeriod, grace := 0, warned := false }

/-- The restore of a LAPSED port, with every block's reaction in the same step (R113): exposure is recomputed under the LIVE
rows (R41). The arbiter is told when the frame has been answered. -/
def State.restore (s : State) (p : Port) : State :=
  (s.setPort p ((s.port p).renewLease (s.portProf p).leasePeriod)).recomputeExposure

/-- RENEW by port state (R109, R113, R114, Table 6-2); a restore makes the port eligible again (R60). -/
def State.takeRenew (s : State) (p : Port) (tag : Byte) : State :=
  let period := (s.portProf p).leasePeriod
  match (s.port p).state with
  | .disabled => s.nak p tag .disabled
  | .detached => s.nak p tag .state
  | .live => (s.setPort p ((s.port p).renewLease period)).ack p tag (.renew (s.port p).epoch period false)
  | .lapsed => ((s.restore p).ack p tag (.renew (s.port p).epoch period true)).arbitrate
  | .closing => s.nak p tag .state

/-- RENEW (R109, R113, R114). -/
def execRenew (p : Port) (tag : Byte) (s : State) : Host.Outcome State Fault Refusal :=
  .next (s.answer p tag (s.takeRenew p tag))

/-- DETACH by port state (R115, Table 6-2): the reply is placed after the reply buffer is emptied at the entry to CLOSING. -/
def State.takeDetach (s : State) (p : Port) (tag : Byte) : State :=
  let epoch := (s.port p).epoch
  match (s.port p).state with
  | .disabled => s.nak p tag .disabled
  | .detached => s.nak p tag .state
  | .live => (s.enterClosing p).ack p tag (.detach epoch .live)
  | .lapsed => (s.enterClosing p).ack p tag (.detach epoch .lapsed)
  | .closing => s.ack p tag (.detach epoch .closing)

/-- DETACH (R115). -/
def execDetach (p : Port) (tag : Byte) (s : State) : Host.Outcome State Fault Refusal :=
  .next (s.answer p tag (s.takeDetach p tag))

/-! ## READ_EVENTS and FETCH (R129 to R131, R171) -/

/-- The queue with the first `n` unheld records held and the held ones released: the records of a new event reply are marked
after it is built, and the reply it replaces releases its own (R129, R130). -/
def remark : Nat → List Record → List Record
  | _, [] => []
  | n, r :: rs =>
    if r.held then r.release :: remark n rs
    else match n with
      | 0 => r :: remark 0 rs
      | k + 1 => { r with held := true } :: remark k rs

/-- The records a new event reply carries: the oldest unheld ones, up to 8 (R129). -/
def replyRecords (events : List Record) : List Record := (events.filter (fun r => !r.held)).take Config.eventsPerReply

/-- The event reply of a port, its records held (R129); data out was held at 0 during the SEND (R166). -/
def PortRec.holdEvents (q : PortRec) (tag : Byte) : PortRec :=
  let rs := replyRecords q.events
  { q with events := remark Config.eventsPerReply q.events
           reply := some ⟨.ack, tag, .events rs q.lost (q.events.length - rs.length)⟩
           transfer := q.transfer.map Transfer.cut, dataOut := [] }

/-- READ_EVENTS by port state (R129, Table 6-2). -/
def State.takeReadEvents (s : State) (p : Port) (tag : Byte) : State :=
  match (s.port p).state with
  | .disabled => s.nak p tag .disabled
  | .detached => s.nak p tag .state
  | .live => s.setPort p ((s.port p).holdEvents tag)
  | .lapsed => s.setPort p ((s.port p).holdEvents tag)
  | .closing => s.nak p tag .state

/-- READ_EVENTS (R129). -/
def execReadEvents (p : Port) (tag : Byte) (s : State) : Host.Outcome State Fault Refusal :=
  .next (s.answer p tag (s.takeReadEvents p tag))

/-- The lost count that a pending reply reported; only an event reply reports one (R131). -/
def reportedLost : Option Reply → Nat
  | some ⟨_, _, .events _ lost _⟩ => lost
  | _ => 0

/-- A reply consumed by a complete fetch: an event reply's held records leave the queue and its lost count is subtracted, and
the buffer is emptied (R131, R171). -/
def PortRec.consume (q : PortRec) : PortRec :=
  { q with events := q.events.filter (fun r => !r.held), lost := q.lost - reportedLost q.reply, reply := none }

/-- The beginning of a FETCH: the reply that the buffer holds at the lead byte's end, or EMPTY (R171); data out has been held at 0
during the lead byte (R166). -/
def PortRec.beginFetch (q : PortRec) : PortRec :=
  { q with dataOut := [], transfer := some (match q.reply with
      | none => ⟨Reply.emptyReply.bytes, false⟩
      | some r => ⟨r.bytes, true⟩) }

/-- The bytes a FETCH shifted out: its reply from the first byte on, then 00h for as long as the host clocks (R171). -/
def shiftedOut (bytes : List Byte) (n : Nat) : List Byte := bytes.take n ++ List.replicate (n - bytes.length) 0

/-- The end of a FETCH: complete when its check byte has been shifted out whole, and then the reply is consumed if it is still
the one the buffer holds (R171). -/
def PortRec.endFetch (q : PortRec) (n : Nat) : PortRec :=
  match q.transfer with
  | none => q
  | some t =>
    let q' := { q with transfer := none, dataOut := shiftedOut t.bytes n }
    if t.live ∧ t.bytes.length ≤ n then q'.consume else q'

/-- A FETCH transaction or a part of it (R171). -/
def PortRec.fetch (q : PortRec) : FetchPart → PortRec
  | .whole n => q.beginFetch.endFetch n
  | .lead => q.beginFetch
  | .rise n => q.endFetch n

/-- A FETCH on a port, handed out in every port state and while STARTING (R171, R179); a reset abandons transactions (R178). -/
def State.fetch (s : State) (p : Port) (part : FetchPart) : State :=
  if s.device = .held then s else s.setPort p ((s.port p).fetch part)

/-- FETCH (R171). -/
def execFetch (p : Port) (part : FetchPart) (s : State) : Host.Outcome State Fault Refusal := .next (s.fetch p part)

/-! ## STATUS (R176) -/

/-- The lease remaining while LIVE, the grace remaining while LAPSED, and 0 otherwise (R103). -/
def PortRec.remaining (q : PortRec) : Nat :=
  match q.state with
  | .live => q.lease
  | .lapsed => q.grace
  | _ => 0

/-- The body of a STATUS reply, at the step in which it is taken (R176). -/
def State.statusBody (s : State) (p : Port) : ReplyBody :=
  let q := s.port p
  .status q.state q.epoch q.remaining q.queue.length (payloadBytes q.queue) (s.headState p) q.events.length q.lost
    q.windowsHeld q.stripsHeld q.errors s.profileDefaulted s.frameNumber s.timeBase

/-- STATUS, taken in every port state; it changes nothing but the reply buffer (R176). -/
def State.takeStatus (s : State) (p : Port) (tag : Byte) : State := s.ack p tag (s.statusBody p)

/-- STATUS (R176). -/
def execStatus (p : Port) (tag : Byte) (s : State) : Host.Outcome State Fault Refusal :=
  .next (s.answer p tag (s.takeStatus p tag))

/-! ## ABORT (R62, R63, R177) -/

/-- A queue reduced to its head, if it has one. -/
def PortRec.onlyHead (q : PortRec) : PortRec := { q with queue := q.queue.take 1 }

/-- ABORT sets the chain outcome to NONE and empties the duplicate memory (R62, R177). -/
def PortRec.afterAbort (q : PortRec) : PortRec := { q with chain := .none, duplicate := none }

/-- The engine's part of an ABORT, by head state: what has not started is removed without report, a started or parked head ends
ABORTED with the cells done of its completed slices, and a head in flight gets a stop mark (R62, R63). -/
def State.abortQueue (s : State) (p : Port) : State :=
  match s.headState p with
  | .empty => s
  | .waiting => s.setPort p (s.port p).discardQueue
  | .inFlight => s.setPort p { (s.port p).onlyHead with stopMark := true }
  | .inProgress | .parked =>
    match (s.port p).queue with
    | [] => s
    | c :: _ => (s.setPort p (s.port p).onlyHead).endCommand p c .aborted .none (s.port p).progress.cellsDone

/-- Whether an ABORT stops a command (R62). -/
def HeadState.stopped : HeadState → Bool
  | .inFlight => true
  | .inProgress => true
  | .parked => true
  | _ => false

/-- The number of commands an ABORT removes without report (R62). -/
def State.abortRemoves (s : State) (p : Port) : Nat :=
  if (s.headState p).stopped then (s.port p).queue.length - 1 else (s.port p).queue.length

/-- An ABORT taken on a LIVE or LAPSED port (R62, R177). -/
def State.abortTaken (s : State) (p : Port) (tag : Byte) : State :=
  let s0 := s.setPort p (s.port p).afterAbort
  (s0.abortQueue p).ack p tag (.abort (s.abortRemoves p) (s.headState p).stopped)

/-- ABORT by port state (R177, Table 6-2). -/
def State.takeAbort (s : State) (p : Port) (tag : Byte) : State :=
  match (s.port p).state with
  | .disabled => s.nak p tag .disabled
  | .detached => s.nak p tag .state
  | .live => s.abortTaken p tag
  | .lapsed => s.abortTaken p tag
  | .closing => s.nak p tag .state

/-- ABORT (R62, R63, R177). -/
def execAbort (p : Port) (tag : Byte) (s : State) : Host.Outcome State Fault Refusal :=
  .next (s.answer p tag (s.takeAbort p tag))

/-! ## Admission (R172, R173) -/

/-- A queued command of a frame's fields (Table 3-1, Table 11-1). -/
def queuedCommand (kind : CommandKind) (flags tag : Byte) (payload : List Byte) : QCmd where
  kind    := kind
  tag     := tag
  report  := flags.getLsbD 0
  urgent  := flags.getLsbD 1
  chain   := flags.getLsbD 2
  payload := payload

/-- The tag and check byte of a queued command's frame (R167, R173). -/
def duplicateKey (kind : CommandKind) (flags tag : Byte) (payload : List Byte) : Byte × Byte :=
  (tag, crc8 (frameBytes (byte (kindCode kind)) flags tag payload))

/-- The body of an admission ACK: the commands in the queue and the payload bytes they hold (R172). -/
def admissionBody (q : List QCmd) : ReplyBody := .admission q.length (payloadBytes q)

/-- A command joins the tail of the queue; it becomes the head, WAITING and with a fresh progress record, when the queue was
empty (R45, R172). -/
def PortRec.enqueue (q : PortRec) (c : QCmd) (key : Byte × Byte) : PortRec :=
  { q with queue := q.queue ++ [c], duplicate := some key
           progress := if q.queue = [] then .fresh else q.progress
           stopMark := if q.queue = [] then false else q.stopMark }

/-- The admission of a queued command on a LIVE port: a duplicate, a full queue, or the join, after which the arbiter may grant
the port (R49, R172). -/
def State.enqueue (s : State) (p : Port) (kind : CommandKind) (flags tag : Byte) (payload : List Byte) : State :=
  let q := s.port p
  let key := duplicateKey kind flags tag payload
  if q.duplicate = some key then s.placeReply p ⟨.ackDuplicate, tag, admissionBody q.queue⟩
  else if q.queue.length ≥ Config.queueCommands ∨ payloadBytes q.queue + payload.length > Config.queueBytes then
    s.nak p tag .full
  else
    let q' := q.enqueue (queuedCommand kind flags tag payload) key
    ((s.setPort p q').ack p tag (admissionBody q'.queue)).arbitrate

/-- A queued command's frame by port state (R172). -/
def State.takeCommand (s : State) (p : Port) (kind : CommandKind) (flags tag : Byte) (payload : List Byte) : State :=
  match (s.port p).state with
  | .disabled => s.nak p tag .disabled
  | .detached => s.nak p tag .state
  | .live => s.enqueue p kind flags tag payload
  | .lapsed => s.nak p tag .state
  | .closing => s.nak p tag .state

/-- COMMAND_ADMISSION (R172). A payload above 512 bytes is no frame that passed the checks: its SEND is answered NAK_LENGTH
(R168). -/
def execCommandAdmission (p : Port) (kind : CommandKind) (flags tag : Byte) (payload : List Byte) (s : State) :
    Host.Outcome State Fault Refusal :=
  .next (if s.device = .held then s
    else if payload.length > Config.maxPayload then s.nak p tag .length
    else s.answer p tag (s.takeCommand p kind flags tag payload))

/-! ## SENDs and transactions by their bytes (R166, R168) -/

/-- A port with its link error count increased for a NAK_FRAMING or a NAK_CHECK (R169). -/
def PortRec.countError (q : PortRec) : NakReason → PortRec
  | .framing => { q with errors := saturate q.errors }
  | .check => { q with errors := saturate q.errors }
  | _ => q

/-- A SEND that fails the link checks: its NAK, and the link error count for the first two (R168, R169). -/
def State.failSend (s : State) (p : Port) (reason : NakReason) (tag : Byte) : State :=
  (s.setPort p ((s.port p).countError reason)).nak p tag reason

/-- A frame that passed the link checks (R168). -/
def State.takeFrame (s : State) (p : Port) (kind : FrameKind) (flags tag : Byte) (payload : List Byte) : State :=
  s.answer p tag (match kind with
    | .attach => s.takeAttach p tag
    | .detach => s.takeDetach p tag
    | .renew => s.takeRenew p tag
    | .readEvents => s.takeReadEvents p tag
    | .status => s.takeStatus p tag
    | .abort => s.takeAbort p tag
    | .queued k => s.takeCommand p k flags tag payload)

/-- A SEND judged in the step in which its chip select rises (R168). -/
def State.send (s : State) (p : Port) (bytes : List Byte) : State :=
  if s.device = .held then s
  else match judgeSend bytes with
    | .nak reason tag => s.failSend p reason tag
    | .frame kind flags tag payload => s.takeFrame p kind flags tag payload

/-- NAK_FRAMING: a SEND is judged by the link checks. One that fails them gets its NAK; the bytes of one that passes are a
frame, and are answered as that frame is (R168). -/
def execNakFraming (p : Port) (bytes : List Byte) (s : State) : Host.Outcome State Fault Refusal := .next (s.send p bytes)

/-- A port after an ignored transaction, in which data out was held at 0 (R166). -/
def PortRec.holdData (q : PortRec) : PortRec := { q with dataOut := [] }

/-- A transaction ignored until chip select rises: it places no reply, changes no count and no state of the part, and data out is
held at 0 (R166). -/
def State.ignoreTransaction (s : State) (p : Port) : State :=
  if s.device = .held then s else s.setPort p (s.port p).holdData

/-- The lead byte that makes a transaction a SEND (R166). -/
def sendLead : Byte := 0x6E

/-- The lead byte that makes a transaction a FETCH (R166). -/
def fetchLead : Byte := 0x9B

/-- A whole transaction by its bytes: the lead byte makes it a SEND of the bytes after it or a FETCH that clocks as many bytes;
with any other lead byte, or with none that is whole, it is ignored (R166). -/
def State.transaction (s : State) (p : Port) : List Byte → State
  | [] => s.ignoreTransaction p
  | lead :: rest =>
    if lead = sendLead then s.send p rest
    else if lead = fetchLead then s.fetch p (.whole rest.length)
    else s.ignoreTransaction p

/-- IGNORED_TRANSACTION: a transaction by its bytes, with a lead byte that makes it neither a SEND nor a FETCH (R166). -/
def execIgnoredTransaction (p : Port) (bytes : List Byte) (s : State) : Host.Outcome State Fault Refusal :=
  .next (s.transaction p bytes)

end Sys2Proof.Machine
end

