-- ==== Sys2Proof/Machine/Inputs.lean ====
section
/-! DEFINITION. Machine/Inputs.lean: the meanings of the touch samples and reports and of the key readings and reports
(chapters 8 and 9). -/

namespace Sys2Proof.Machine

/-! ## Touch mapping and the hit test -/

/-- One axis of the calibration: (raw − offset) × gain × size divided by 4096 × 1024, rounded down and clamped (R135). -/
def mapAxis (raw : Nat) (offset : Int) (gain size : Nat) : Nat :=
  min ((((raw : Int) - offset) * gain * size) / (4096 * 1024)).toNat (size - 1)

/-- The screen pixel position of a contact sample (R135). -/
def mapTouch (prof : Profile) (rawX rawY : BitVec 12) : Pixel :=
  ⟨mapAxis rawX.toNat prof.offsetX prof.gainX (8 * prof.gridCols),
   mapAxis rawY.toNat prof.offsetY prof.gainY (16 * prof.gridRows)⟩

/-- The search of the hit test through the latched windows that contain the cell, from the top (R140): the window that takes
the capture, or none when the press is unclaimed. -/
def State.hitSearch (s : State) : List LatchedWindow → Option Window
  | [] => none
  | l :: rest =>
    match s.windowOf l.handle with
    | none => none
    | some w =>
      match w.touchMode with
      | .pass => s.hitSearch rest
      | .block => none
      | .take => if (s.port w.owner).state = .live then some w else none

/-- The hit test of a press at a pixel (R140). -/
def State.hitTest (s : State) (q : Pixel) : Option Window :=
  match s.latched with
  | none => none
  | some l => s.hitSearch (l.windows.filter (fun w => contains w.view (q.x / 8) (q.y / 16)))

/-! ## Press, move and release reports at the router -/

/-- A press that gives the capture to a key-eligible window asks for key focus for it under the focus rule (R142). -/
def State.pressFocus (s : State) (w : Window) : State :=
  if w.keyEligible ∧ s.focus ≠ some w.handle ∧ s.permitsFocus w then s.moveFocus w else s

/-- The router's part of a press report (R141, R142). -/
def State.routePress (s : State) (q : Pixel) : State :=
  match s.hitTest q with
  | none => { s with capture := .orphan }
  | some w =>
    ({ s with capture := .captured w.handle w.owner }.post w.owner (.touchPress q) (some w.handle)).pressFocus w

/-- The router's part of a move report (R143). -/
def State.routeMove (s : State) (q : Pixel) : State :=
  match s.capture with
  | .captured h owner => s.post owner (.touchMove q) (some h)
  | _ => s

/-- The router's part of a release report (R143). -/
def State.routeRelease (s : State) (q : Pixel) : State :=
  match s.capture with
  | .captured h owner => { s with capture := .idle }.post owner (.touchRelease q) (some h)
  | _ => { s with capture := .idle }

/-! ## The sampler (R136 to R138) -/

/-- The distance of two numbers. -/
def distance (a b : Nat) : Nat := (a - b) + (b - a)

/-- A position differs from the last reported one by at least the move threshold in x or in y (R137). -/
def travelled (threshold : Nat) (reported : Option Pixel) (q : Pixel) : Bool :=
  match reported with
  | none => true
  | some r => decide (threshold ≤ distance q.x r.x) || decide (threshold ≤ distance q.y r.y)

/-- A contact sample in contact state UP; the second in a row is a press (R136). -/
def State.contactUp (s : State) (q : Pixel) : State :=
  if s.sampler.run + 1 < 2 then { s with sampler := { s.sampler with run := s.sampler.run + 1, lastContact := some q } }
  else { s with sampler := ⟨true, 0, some q, some q⟩ }.routePress q

/-- A contact sample in contact state DOWN: a move when it has travelled far enough (R137). -/
def State.contactDown (s : State) (q : Pixel) : State :=
  if travelled s.prof.moveThreshold s.sampler.lastReported q then
    { s with sampler := { s.sampler with run := 0, lastContact := some q, lastReported := some q } }.routeMove q
  else { s with sampler := { s.sampler with run := 0, lastContact := some q } }

/-- A no-contact sample in contact state DOWN; the third in a row is a release at the last contact position (R138). -/
def State.noContactDown (s : State) : State :=
  if s.sampler.run + 1 < 3 then { s with sampler := { s.sampler with run := s.sampler.run + 1 } }
  else match s.sampler.lastContact with
    | none => { s with sampler := .reset, capture := .idle }
    | some q => { s with sampler := .reset }.routeRelease q

/-- One sample of the touch layer, with the report it makes in the same step (R134, R136 to R138). -/
def State.sampleTouch (s : State) (reading : TouchReading) : State :=
  match reading, s.sampler.down with
  | some (x, y), false => s.contactUp (mapTouch s.prof x y)
  | some (x, y), true => s.contactDown (mapTouch s.prof x y)
  | none, false => { s with sampler := { s.sampler with run := 0 } }
  | none, true => s.noContactDown

/-- The sampler takes samples: the device is READY and the profile has touch enabled (R134). -/
def State.sampling (s : State) : Bool := s.device == .ready && s.prof.touchEnabled

/-- TOUCH_SAMPLE (R134). -/
def execTouchSample (reading : TouchReading) (s : State) : Host.Outcome State Fault Refusal :=
  .next (if s.sampling then s.sampleTouch reading else s)

/-- PRESS_REPORT: the contact sample that is the second in a row in UP (R136, R141). In any other state of the sampler no
press is made (log 1). -/
def execPressReport (rawX rawY : BitVec 12) (s : State) : Host.Outcome State Fault Refusal :=
  .next (if s.sampling ∧ s.sampler.down = false ∧ s.sampler.run = 1 then s.contactUp (mapTouch s.prof rawX rawY) else s)

/-- RELEASE_REPORT: the no-contact sample that is the third in a row in DOWN (R138, R143). In any other state of the sampler
no release is made (log 1). -/
def execReleaseReport (s : State) : Host.Outcome State Fault Refusal :=
  .next (if s.sampling ∧ s.sampler.down = true ∧ s.sampler.run = 2 then s.noContactDown else s)

/-! ## Keys: routing and captures (R149 to R152) -/

/-- The deliveries of a key's down report, by its routing (Table 9-1, R149). -/
def State.keyDeliveries (s : State) : Routing → KeyCapture
  | .focus =>
    match s.focusWindow with
    | none => ⟨[], none⟩
    | some w => ⟨[w.owner], some w.handle⟩
  | .port n => if (s.port n).state = .live then ⟨[n], none⟩ else ⟨[], none⟩
  | .all => ⟨allPorts.filter (fun p => (s.port p).state == .live), none⟩
  | .silence => ⟨[], none⟩
  | .none => ⟨[], none⟩

/-- A key record posted to each port of a capture, in port order (R149, R150). -/
def State.postKey (s : State) (c : KeyCapture) (body : EventBody) : State :=
  c.ports.foldl (fun s p => s.post p body c.handle) s

/-- The router's part of a down report: the capture recorded, KEY_DOWN posted, and a SILENCE key's claim made (R149, R152,
R163). -/
def State.routeDown (s : State) (k : KeyId) : State :=
  let routing := s.prof.routing.get k
  let c := s.keyDeliveries routing
  let s1 := (s.setKey k { s.key k with capture := some c }).postKey c (.keyDown k)
  if routing = .silence then s1.silence else s1

/-- A record posted to the ports of a key's capture, none while the key has no capture (R150). -/
def State.postCapture (s : State) (k : KeyId) (body : EventBody) : State :=
  match (s.key k).capture with
  | none => s
  | some c => s.postKey c body

/-! ## Keys: the scanner (R147, R148) -/

/-- The repeat timer of a key as its down report starts it, and as each repeat restarts it (R148). -/
def State.repeatTimer (s : State) (k : KeyId) (ms : Nat) : Option Nat :=
  if s.prof.repeatEnabled.get k then some ms else none

/-- A key accepted DOWN: the repeat timer starts, and the down is routed in the same step (R147 to R149). -/
def State.acceptDown (s : State) (k : KeyId) : State :=
  (s.setKey k { s.key k with down := true, agree := 0, timer := s.repeatTimer k s.prof.repeatDelay }).routeDown k

/-- A key accepted UP: KEY_UP goes to the capture, which becomes none, and the repeat timer stops (R147, R148, R150). -/
def State.acceptUp (s : State) (k : KeyId) : State :=
  let s1 := s.postCapture k (.keyUp k)
  s1.setKey k { s1.key k with down := false, agree := 0, timer := none, capture := none }

/-- A reading of a key: one equal to the accepted state sets the count to 0, one that differs increases it, and the twentieth in
a row is accepted (R147). -/
def State.readKey (s : State) (k : KeyId) (pressed : Bool) : State :=
  let q := s.key k
  if pressed = q.down then s.setKey k { q with agree := 0 }
  else if q.agree + 1 < Config.keyAgreement then s.setKey k { q with agree := q.agree + 1 }
  else if pressed then s.acceptDown k else s.acceptUp k

/-- KEY_READING; the scanner reads from READY on (R147). -/
def execKeyReading (k : KeyId) (pressed : Bool) (s : State) : Host.Outcome State Fault Refusal :=
  .next (if s.device = .ready then s.readKey k pressed else s)

/-- The next reading that differs from the key's accepted state is the one that is accepted (R147). -/
def KeyRec.ripe (q : KeyRec) : Bool := decide (q.agree + 1 = Config.keyAgreement)

/-- DOWN_REPORT: the reading that accepts a key DOWN (R147, R149). In any other state of the key no report is made (log 1). -/
def execDownReport (k : KeyId) (s : State) : Host.Outcome State Fault Refusal :=
  .next (if s.device = .ready ∧ (s.key k).down = false ∧ (s.key k).ripe then s.acceptDown k else s)

/-- UP_REPORT: the reading that accepts a key UP (R147, R150). In any other state of the key no report is made (log 1). -/
def execUpReport (k : KeyId) (s : State) : Host.Outcome State Fault Refusal :=
  .next (if s.device = .ready ∧ (s.key k).down = true ∧ (s.key k).ripe then s.acceptUp k else s)

/-- A repeat report: KEY_REPEAT goes to the key's capture, and the timer restarts at the repeat interval (R148, R150). -/
def State.repeatKey (s : State) (k : KeyId) : State :=
  (s.setKey k { s.key k with timer := s.repeatTimer k s.prof.repeatInterval }).postCapture k (.keyRepeat k)

/-- REPEAT_REPORT: the repeat timer has run out while the key is DOWN (R148, R150). -/
def execRepeatReport (k : KeyId) (s : State) : Host.Outcome State Fault Refusal :=
  .next (if s.device = .ready ∧ (s.key k).down = true ∧ (s.key k).timer = some 0 then s.repeatKey k else s)

end Sys2Proof.Machine
end

