-- ==== Sys2Proof/Machine/Timers.lean ====
section
/-! DEFINITION. Machine/Timers.lean: the meanings of the lease, grace, teardown and tone events (chapters 2, 6 and 10). -/

namespace Sys2Proof.Machine

/-! ## Leases (R108, R110, R112) -/

/-- The warning of a lease: the flag is set and LEASE_WARNING posted (R108). -/
def State.warnLease (s : State) (p : Port) : State :=
  (s.setPort p { s.port p with warned := true }).post p (.leaseWarning (s.port p).lease) none

/-- LEASE_WARNING: the lease remaining has fallen to half and the flag is clear (R108). Otherwise no warning is due (log 1). -/
def execLeaseWarning (p : Port) (s : State) : Host.Outcome State Fault Refusal :=
  .next (if (s.port p).state = .live ∧ (s.port p).warned = false ∧ 2 * (s.port p).lease = (s.portProf p).leasePeriod then
      s.warnLease p
    else s)

/-- The expiry of a lease: a lapse, or the entry to CLOSING when the grace period is 0 (R110). -/
def State.expireLease (s : State) (p : Port) : State :=
  if (s.portProf p).gracePeriod = 0 then s.enterClosing p else s.lapse p

/-- LEASE_EXPIRY: the lease remaining of a LIVE port has reached 0 (R110). Otherwise no expiry takes place (log 1). -/
def execLeaseExpiry (p : Port) (s : State) : Host.Outcome State Fault Refusal :=
  .next (if (s.port p).state = .live ∧ (s.port p).lease = 0 then s.expireLease p else s)

/-- GRACE_EXPIRY: the grace remaining of a LAPSED port has reached 0 (R112). Otherwise no expiry takes place (log 1). -/
def execGraceExpiry (p : Port) (s : State) : Host.Outcome State Fault Refusal :=
  .next (if (s.port p).state = .lapsed ∧ (s.port p).grace = 0 then s.enterClosing p else s)

/-! ## Teardown (R42, R117, R118) -/

/-- A slice of a COPY_RECT whose source operand names the window of a handle is in flight (R78, R81). -/
def State.copyingFrom (s : State) (h : Handle) : Bool :=
  match s.slice with
  | none => false
  | some q => match (s.port q).queue with
    | [] => false
    | c :: _ => c.kind == .copyRect && handleAt c.payload 0 == h

/-- The next removal of a port's teardown waits for a slice of a copy from the window to be removed: a removal of the source that
comes while such a slice is in flight is taken after that slice's step (R81). -/
def State.removalWaits (s : State) (p : Port) : Bool :=
  match s.topWindow p with
  | none => false
  | some w => s.copyingFrom w.handle

/-- A removal of a teardown comes: it is taken, or waits for the slice in flight and follows that slice's step (R42, R81). -/
def State.comeRemoval (s : State) (p : Port) : State :=
  if s.removalWaits p then { s with waitingRemoval := some p } else s.teardownStep p

/-- TEARDOWN_REMOVAL (R42). With no teardown under way no removal comes (log 1). -/
def execTeardownRemoval (p : Port) (s : State) : Host.Outcome State Fault Refusal :=
  .next (if s.tearingDown p then s.comeRemoval p else s)

/-! ## Tones (R159, R162) -/

/-- A port's active request has reached its end time (R162). -/
def State.toneDue (s : State) (p : Port) : Bool :=
  match (s.port p).tone with
  | none => false
  | some t => match t.endTime with
    | none => false
    | some e => decide (e ≤ t.age)

/-- TONE_EXPIRY (R162). Before its end time a request does not expire (log 1). -/
def execToneExpiry (p : Port) (s : State) : Host.Outcome State Fault Refusal :=
  .next (if s.toneDue p then s.endTone p .elapsed else s)

/-- TONE_PHASE_CHANGE: the tone pair follows the phase of the sounding request (R159). -/
def execTonePhaseChange (s : State) : Host.Outcome State Fault Refusal :=
  .next { s with sounder := s.drivenPitch s.sounding }

end Sys2Proof.Machine
end

