-- ==== Sys2Proof/Machine/StartUp.lean ====
section
/-! DEFINITION. Machine/StartUp.lean: the meanings of DEVICE_RESET, DEVICE_RESET_END and PROFILE_LOAD_END (chapter 12). -/

namespace Sys2Proof.Machine

/-- DEVICE_RESET: every block takes its reset state, everything in progress is abandoned, and the part is held in reset (R120,
R178). The queue of commands that wait outside the part is kept. -/
def execDeviceReset (s : State) : Host.Outcome State Fault Refusal :=
  .next { State.reset with device := .held, pending := s.pending }

/-- DEVICE_RESET_END: the time base starts at 0, the device is STARTING and the load begins (R178). RESET rises only where it
was low (log 1). -/
def execDeviceResetEnd (s : State) : Host.Outcome State Fault Refusal :=
  .next (if s.device = .held then { State.reset with pending := s.pending } else s)

/-- The state of a port at READY, as the profile enables or disables it (R103). -/
def PortRec.startState (q : PortRec) (enabled : Bool) : PortRec :=
  { q with state := if enabled then .detached else .disabled }

/-- The profile and the defaulted flag that an image gives (R181). -/
def loadedProfile (image : Option (List Byte)) : Profile × Bool :=
  match judgeImage image with
  | .ok p => (p, false)
  | .error _ => (Profile.default_, true)

/-- The state with a loaded profile in force in every block, each port DETACHED or DISABLED, and the device READY (R103,
R182). -/
def State.takeProfile (s : State) (e : Profile × Bool) : State :=
  let s1 := { s with device := .ready, profile := some e.1, profileDefaulted := e.2, framePhase := 0 }
  allPorts.foldl (fun s p => s.setPort p ((s.port p).startState (e.1.ports.get p).enabled)) s1

/-- The step in which the load ends: the profile takes effect, the first frame start is made and the touch sampler takes its
first sample, unless the profile disables touch (R134, R182). -/
def State.becomeReady (s : State) (image : Option (List Byte)) (first : TouchReading) : State :=
  let s1 := (s.takeProfile (loadedProfile image)).frameStart
  if s1.sampling then s1.sampleTouch first else s1

/-- PROFILE_LOAD_END (R182). Only a STARTING device has a load under way (log 1). -/
def execProfileLoadEnd (image : Option (List Byte)) (first : TouchReading) (s : State) : Host.Outcome State Fault Refusal :=
  .next (if s.device = .starting then s.becomeReady image first else s)

end Sys2Proof.Machine
end

