-- ==== Sys2Proof/Machine/Tick.lean ====
section
/-! DEFINITION. Machine/Tick.lean: what the part does while no command waits: the slice in flight runs, or a millisecond of the
time base passes and the time-driven events that fall due are put in the queue (log 2). -/

namespace Sys2Proof.Machine

/-- The slice row that serves a queued command of kind `k` on port `p`. -/
def sliceOf (k : CommandKind) (p : Port) : Instr :=
  match k with
  | .createWindow => .createWindow p
  | .destroyWindow => .destroyWindow p
  | .placeWindow => .placeWindow p
  | .showWindow => .showWindow p
  | .hideWindow => .hideWindow p
  | .raiseWindow => .raiseWindow p
  | .lowerWindow => .lowerWindow p
  | .setBand => .setBand p
  | .setWindowModes => .setWindowModes p
  | .grantRead => .grantRead p
  | .revokeRead => .revokeRead p
  | .queryWindow => .queryWindow p
  | .setPen => .setPen p
  | .setCursor => .setCursor p
  | .writeText => .writeText p
  | .putCells => .putCells p
  | .fillRect => .fillRect p
  | .copyRect => .copyRect p
  | .shiftRect => .shiftRect p
  | .readCells => .readCells p
  | .loadGlyphs => .loadGlyphs p
  | .requestFocus => .requestFocus p
  | .releaseFocus => .releaseFocus p
  | .toneStart => .toneStart p
  | .toneStop => .toneStop p
  | .setBrightness => .setBrightness p
  | .frameMark => .frameMark p

/-! ## A millisecond (0.5, R89, R107, R112, R124, R148, R158) -/

/-- A port's timers after a millisecond: the lease runs in LIVE alone, the grace in LAPSED alone, and a tone request ages. -/
def PortRec.tick (q : PortRec) : PortRec :=
  { q with
    lease := if q.state = .live then q.lease - 1 else q.lease
    grace := if q.state = .lapsed then q.grace - 1 else q.grace
    tone := q.tone.map (fun t => { t with age := t.age + 1 }) }

/-- A key's repeat timer after a millisecond. -/
def KeyRec.tick (q : KeyRec) : KeyRec := { q with timer := q.timer.map (· - 1) }

/-- The timers after a millisecond. The frame phase counts milliseconds since the first frame start modulo 50, the time of
three frame periods. -/
def State.advanceTime (s : State) : State :=
  { s with
    timeBase := s.timeBase + 1
    ports := s.ports.map PortRec.tick
    keys := s.keys.map KeyRec.tick
    framePhase := if s.device = .ready then (s.framePhase + 1) % 50 else s.framePhase }

/-! ## What falls due -/

/-- The commands of one port that are due at this millisecond: its lease warning and expiry, its grace expiry, its tone expiry
and its teardown's next removal. -/
def State.duePort (s : State) (p : Port) : List Instr :=
  let q := s.port p
  (if q.state = .live ∧ q.warned = false ∧ 2 * q.lease = (s.portProf p).leasePeriod then [.leaseWarning p] else [])
    ++ (if q.state = .live ∧ q.lease = 0 then [.leaseExpiry p] else [])
    ++ (if q.state = .lapsed ∧ q.grace = 0 then [.graceExpiry p] else [])
    ++ (if s.toneDue p then [.toneExpiry p] else [])
    ++ (if s.tearingDown p then [.teardownRemoval p] else [])

/-- The sounding request is at the edge of an on or off phase (R159). -/
def State.phaseDue (s : State) : Bool :=
  match s.sounding.bind (fun p => (s.port p).tone) with
  | none => false
  | some t => t.pattern == .pulsed && t.age % 200 == 0

/-- The repeat report of a key whose repeat timer has run out (R148). -/
def State.dueKey (s : State) (k : KeyId) : List Instr :=
  if (s.key k).down = true ∧ (s.key k).timer = some 0 then [.repeatReport k] else []

/-- A frame start is due: floor(k × 1000 / 60) ms have passed since the first one for some k (R89). -/
def frameDue (phase : Nat) : Bool := phase == 0 || phase == 16 || phase == 33

/-- The screen rows scanned in a millisecond, enough for the whole screen in 15 of them (R92, log 2): between the first frame start,
which the end of the profile load makes, and the second there are 15 milliseconds that scan, and in every later frame more. -/
def State.rowsPerMs (s : State) : Nat := (s.prof.gridRows + 14) / 15

/-- The time-driven commands due at this millisecond, in the order the model takes them (log 2). -/
def State.dueNow (s : State) : List Instr :=
  if s.device = .ready then
    (allPorts.map s.duePort).flatten
      ++ (if s.phaseDue then [.tonePhaseChange] else [])
      ++ (allKeys.map s.dueKey).flatten
      ++ (if frameDue s.framePhase then [.frameStart] else [])
      ++ List.replicate s.rowsPerMs .scanRowFetch
  else []

/-- A millisecond passes, and the commands that fall due at it wait in the queue. -/
def State.tick (s : State) : State :=
  let s1 := s.advanceTime
  { s1 with pending := s1.dueNow }

/-- The slice row of the slice in flight, if there is one. -/
def State.sliceInstr (s : State) : Option Instr :=
  match s.slice with
  | none => none
  | some p => match (s.port p).queue with
    | [] => none
    | c :: _ => some (sliceOf c.kind p)

/-- What the part does on an empty queue: nothing while it is held in reset; the slice in flight comes to its step, well within
a millisecond (R52); with none in flight, a millisecond passes (log 2). -/
def State.idle (s : State) : State :=
  match s.device with
  | .held => s
  | _ => match s.sliceInstr with
    | some i => { s with pending := [i] }
    | none => s.tick

end Sys2Proof.Machine
end

