-- ==== Sys2Proof/Machine/Dispatch.lean ====
section
/-! DEFINITION. Machine/Dispatch.lean: one arm per command, each a direct call of its meaning. -/

namespace Sys2Proof.Machine

def exec (i : Instr) (s : State) : Host.Outcome State Fault Refusal :=
  match i with
  | .deviceReset => Sys2Proof.Machine.execDeviceReset s
  | .deviceResetEnd => Sys2Proof.Machine.execDeviceResetEnd s
  | .profileLoadEnd image first => Sys2Proof.Machine.execProfileLoadEnd image first s
  | .nakFraming p bytes => Sys2Proof.Machine.execNakFraming p bytes s
  | .fetch p part => Sys2Proof.Machine.execFetch p part s
  | .attach p tag => Sys2Proof.Machine.execAttach p tag s
  | .renew p tag => Sys2Proof.Machine.execRenew p tag s
  | .detach p tag => Sys2Proof.Machine.execDetach p tag s
  | .readEvents p tag => Sys2Proof.Machine.execReadEvents p tag s
  | .status p tag => Sys2Proof.Machine.execStatus p tag s
  | .abort p tag => Sys2Proof.Machine.execAbort p tag s
  | .commandAdmission p kind flags tag payload => Sys2Proof.Machine.execCommandAdmission p kind flags tag payload s
  | .createWindow p => Sys2Proof.Machine.execCreateWindow p s
  | .destroyWindow p => Sys2Proof.Machine.execDestroyWindow p s
  | .placeWindow p => Sys2Proof.Machine.execPlaceWindow p s
  | .showWindow p => Sys2Proof.Machine.execShowWindow p s
  | .hideWindow p => Sys2Proof.Machine.execHideWindow p s
  | .raiseWindow p => Sys2Proof.Machine.execRaiseWindow p s
  | .lowerWindow p => Sys2Proof.Machine.execLowerWindow p s
  | .setBand p => Sys2Proof.Machine.execSetBand p s
  | .setWindowModes p => Sys2Proof.Machine.execSetWindowModes p s
  | .grantRead p => Sys2Proof.Machine.execGrantRead p s
  | .revokeRead p => Sys2Proof.Machine.execRevokeRead p s
  | .queryWindow p => Sys2Proof.Machine.execQueryWindow p s
  | .setPen p => Sys2Proof.Machine.execSetPen p s
  | .setCursor p => Sys2Proof.Machine.execSetCursor p s
  | .writeText p => Sys2Proof.Machine.execWriteText p s
  | .putCells p => Sys2Proof.Machine.execPutCells p s
  | .fillRect p => Sys2Proof.Machine.execFillRect p s
  | .copyRect p => Sys2Proof.Machine.execCopyRect p s
  | .shiftRect p => Sys2Proof.Machine.execShiftRect p s
  | .readCells p => Sys2Proof.Machine.execReadCells p s
  | .loadGlyphs p => Sys2Proof.Machine.execLoadGlyphs p s
  | .requestFocus p => Sys2Proof.Machine.execRequestFocus p s
  | .releaseFocus p => Sys2Proof.Machine.execReleaseFocus p s
  | .toneStart p => Sys2Proof.Machine.execToneStart p s
  | .toneStop p => Sys2Proof.Machine.execToneStop p s
  | .setBrightness p => Sys2Proof.Machine.execSetBrightness p s
  | .frameMark p => Sys2Proof.Machine.execFrameMark p s
  | .frameStart => Sys2Proof.Machine.execFrameStart s
  | .touchSample reading => Sys2Proof.Machine.execTouchSample reading s
  | .pressReport rawX rawY => Sys2Proof.Machine.execPressReport rawX rawY s
  | .releaseReport => Sys2Proof.Machine.execReleaseReport s
  | .keyReading k pressed => Sys2Proof.Machine.execKeyReading k pressed s
  | .downReport k => Sys2Proof.Machine.execDownReport k s
  | .repeatReport k => Sys2Proof.Machine.execRepeatReport k s
  | .upReport k => Sys2Proof.Machine.execUpReport k s
  | .leaseWarning p => Sys2Proof.Machine.execLeaseWarning p s
  | .leaseExpiry p => Sys2Proof.Machine.execLeaseExpiry p s
  | .graceExpiry p => Sys2Proof.Machine.execGraceExpiry p s
  | .teardownRemoval p => Sys2Proof.Machine.execTeardownRemoval p s
  | .toneExpiry p => Sys2Proof.Machine.execToneExpiry p s
  | .tonePhaseChange => Sys2Proof.Machine.execTonePhaseChange s
  | .scanRowFetch => Sys2Proof.Machine.execScanRowFetch s
  | .ignoredTransaction p bytes => Sys2Proof.Machine.execIgnoredTransaction p bytes s

end Sys2Proof.Machine
end

