-- ==== Sys2Proof/Safety.lean ====
section
/-! DEFINITION. Safety.lean: the terms that statements about the part use: a slice being served and the state its end leaves,
the groups of state that a command leaves alone, the cells of views, the units of a text, and the invariants that every step
keeps. -/

namespace Sys2Proof.Machine

/-! ## A slice being served -/

/-- Port `p`'s head is the command `c` and the engine's slice in flight is its slice (R45, R51). -/
abbrev HeadInFlight (s : State) (p : Port) (c : QCmd) : Prop :=
  s.slice = some p ∧ (s.port p).queue.head? = some c

/-- The slice of `c` is the command's first, and the chain check ends it: CHAIN is set and the chain outcome is FAILED (R53). -/
abbrev ChainSkips (s : State) (p : Port) (c : QCmd) : Prop :=
  (s.port p).progress.started = false ∧ c.chain = true ∧ (s.port p).chain = .failed

/-- Port `p`'s slice in flight serves the command `c` of kind `k` in the ordinary way: it passes the chain check, no ABORT has
marked it, its port is not CLOSING, and no removal waits for it (R51, R53, R61, R63, R81). -/
abbrev Serves (s : State) (p : Port) (k : CommandKind) (c : QCmd) : Prop :=
  HeadInFlight s p c ∧ c.kind = k ∧ ¬ ChainSkips s p c ∧ (s.port p).stopMark = false ∧ (s.port p).state ≠ .closing
    ∧ s.waitingRemoval = none

/-- The handle operand of `c` names the window `w`, and `w` is port `p`'s own (R20). -/
abbrev NamesOwn (s : State) (p : Port) (c : QCmd) (w : Window) : Prop :=
  s.windowOf (handleAt c.payload 0) = some w ∧ w.owner = p

/-- The handle operand of `c` names the window `w`, which port `p` owns or is granted (R20). -/
abbrev NamesReadable (s : State) (p : Port) (c : QCmd) (w : Window) : Prop :=
  s.windowOf (handleAt c.payload 0) = some w ∧ (w.owner = p ∨ p ∈ w.grants)

/-- The state after the slice in flight, whose effects have left the state `s`, has ended its command (R51, R55): the engine has
no slice, port `p`'s head `c` ends with a status, a result part and cells done, and the arbiter makes its next grant. -/
def State.concludes (s : State) (p : Port) (c : QCmd) (st : Status) (res : ResultPart) (cells : Nat) : State :=
  ({ s with slice := none }.endCommand p c st res cells).arbitrate

/-! ## What a command leaves alone -/

/-- The clocks, the profile, the frame, the panel output and the touch sampler are unchanged, and so is the queue of waiting
commands. -/
abbrev SamePanel (s t : State) : Prop :=
  t.device = s.device ∧ t.timeBase = s.timeBase ∧ t.profile = s.profile ∧ t.profileDefaulted = s.profileDefaulted
    ∧ t.frameNumber = s.frameNumber ∧ t.blinkCount = s.blinkCount ∧ t.framePhase = s.framePhase ∧ t.latched = s.latched
    ∧ t.brightness = s.brightness ∧ t.scanRow = s.scanRow ∧ t.rowBuffer = s.rowBuffer ∧ t.pixelRows = s.pixelRows
    ∧ t.sampler = s.sampler ∧ t.pending = s.pending

/-- The window table with its stack and generations, a removal that waits, the strip memory and the strip pool are unchanged. -/
abbrev SameStore (s t : State) : Prop :=
  t.windows = s.windows ∧ t.generations = s.generations ∧ t.memory = s.memory ∧ t.available = s.available
    ∧ t.retiring = s.retiring ∧ t.waitingRemoval = s.waitingRemoval

/-- Key focus, the touch capture and the keys are unchanged. -/
abbrev SameInput (s t : State) : Prop := t.focus = s.focus ∧ t.capture = s.capture ∧ t.keys = s.keys

/-- The tone unit's shared state is unchanged: the start sequence, the sounding request and the sounder. -/
abbrev SameSound (s t : State) : Prop := t.toneSeq = s.toneSeq ∧ t.sounding = s.sounding ∧ t.sounder = s.sounder

/-- The arbiter's state and the slice in flight are unchanged. -/
abbrev SameArbiter (s t : State) : Prop :=
  t.slice = s.slice ∧ t.urgentNext = s.urgentNext ∧ t.normalNext = s.normalNext ∧ t.urgentRun = s.urgentRun

/-- What the part holds for every port but `p` is unchanged. -/
abbrev SameOthers (s t : State) (p : Port) : Prop := ∀ q, q ≠ p → t.port q = s.port q

/-- What the part holds for a port is unchanged but for what a posted record may change: the event queue and the lost count. -/
abbrev OnlyRecords (q r : PortRec) : Prop := r = { q with events := r.events, lost := r.lost }

/-- A window without its two computed fields (R16). -/
def Window.bare (w : Window) : Window := { w with exposure := .none, visible := 0 }

/-- Port `p` owns a window. -/
abbrev State.ownsWindow (s : State) (p : Port) : Prop := ∃ w ∈ s.windows, w.owner = p

/-- The window `x` is composed shown and its view contains the screen cell (c, r) (R22, R23). -/
abbrev Covers (s : State) (x : Window) (c r : Nat) : Prop :=
  s.rendering x ≠ none ∧ x.view.col ≤ c ∧ c < x.view.col + x.view.w ∧ x.view.row ≤ r ∧ r < x.view.row + x.view.h

/-- The screen cells of a view, row by row, each once (R23). -/
def viewCells (v : Rect) : List (Nat × Nat) :=
  (List.range v.h).flatMap (fun j => (List.range v.w).map (fun i => (v.col + i, v.row + j)))

/-- The windows and the event queues after the exposure recomputation that an entry of port `p` to CLOSING makes: one from LIVE
makes it with the port CLOSING already, one from LAPSED makes none (R25). -/
def State.closingExposure (s : State) (p : Port) : State :=
  if (s.port p).state = .live then (s.setPort p { s.port p with state := .closing }).recomputeExposure else s

/-- What the entry of port `p` to CLOSING leaves of the state `s`, in every block (R116, R117, R118). With no slice of the port
in flight its queue is discarded and the teardown notice follows in the same step, which ends the teardown at once where the port
owns no window. A FETCH under way goes on, and its end consumes nothing (R171). -/
structure EntersClosing (s t : State) (p : Port) : Prop where
  panel : SamePanel s t
  store : t.generations = s.generations ∧ t.memory = s.memory ∧ t.available = s.available ∧ t.retiring = s.retiring
    ∧ t.waitingRemoval = s.waitingRemoval
  arbiter : SameArbiter s t
  state : (t.port p).state = if s.slice = some p ∨ s.ownsWindow p then .closing else .detached
  timers : (t.port p).lease = 0 ∧ (t.port p).grace = 0 ∧ (t.port p).warned = false ∧ (t.port p).epoch = (s.port p).epoch
  queues : (t.port p).reply = none ∧ (t.port p).events = [] ∧ (t.port p).lost = 0
  requests : (t.port p).brightness = none ∧ (t.port p).waiter = false ∧ (t.port p).tone = none
  link : (t.port p).transfer = (s.port p).transfer.map Transfer.cut ∧ (t.port p).dataOut = (s.port p).dataOut
    ∧ (t.port p).duplicate = (s.port p).duplicate
  commands : (t.port p).queue = if s.slice = some p then (s.port p).queue else []
  head : (t.port p).progress = (if s.slice = some p then (s.port p).progress else .fresh)
    ∧ (t.port p).stopMark = (if s.slice = some p then (s.port p).stopMark else false)
  kept : (t.port p).chain = (s.port p).chain ∧ (t.port p).errors = (s.port p).errors
    ∧ (t.port p).windowsHeld = (s.port p).windowsHeld ∧ (t.port p).stripsHeld = (s.port p).stripsHeld
  bank : (t.port p).bank = if s.slice = some p ∨ s.ownsWindow p then (s.port p).bank else Vector.replicate 64 blankPattern
  windows : t.windows = (s.closingExposure p).windows.map (fun w => if s.slice = some p then w else Window.ungrant p w)
  focus : t.focus = if s.focusOwner = some p then none else s.focus
  capture : t.capture = match s.capture with | .captured h o => if o = p then .orphan else .captured h o | c => c
  keys : ∀ k, t.key k = KeyRec.dropPort p (s.key k)
  sound : t.toneSeq = s.toneSeq ∧ t.sounding = t.soundingChoice ∧ t.sounder = t.drivenPitch t.sounding
  others : ∀ q, q ≠ p → t.port q = (s.closingExposure p).port q

/-! ## Text -/

/-- A point between two units of a WRITE_TEXT: the text cursor, the next item, the marks of R75 (a line advance is owed, the
discarding state holds, its overflow mark has been written) and the cells of the surface. -/
structure TextPoint where
  col        : Nat
  row        : Nat
  next       : Nat
  owed       : Bool
  discarding : Bool
  marked     : Bool
  cells      : Nat → Nat → Cell

/-- The point with a cell written at its cursor. -/
def TextPoint.write (a : TextPoint) (v : Cell) : TextPoint :=
  { a with cells := fun c r => if c = a.col ∧ r = a.row then v else a.cells c r }

/-- The point after a line advance, and the cells that the advance counts (R74). -/
def TextPoint.advance (w : Window) (a : TextPoint) : TextPoint × Nat :=
  if a.row + 1 < w.sr then ({ a with col := 0, row := a.row + 1, owed := false }, 0)
  else if w.autoscroll then
    ({ a with col := 0, owed := false, cells := fun c r => if r + 1 < w.sr then a.cells c (r + 1) else w.clear }, w.sc)
  else ({ a with col := 0, row := 0, owed := false }, 0)

/-- The point after an item, and the cells that the item counts (R72, R73). -/
def TextPoint.item (w : Window) (a : TextPoint) : TextItem → TextPoint × Nat
  | .glyph g =>
    let written := { a.write { w.pen with glyph := g } with next := a.next + 1 }
    if a.discarding then
      ({ (if a.marked = false ∧ w.pen.glyph ≠ 0 then a.write w.pen else a) with next := a.next + 1, marked := true }, 1)
    else if a.col + 1 < w.sc then ({ written with col := a.col + 1 }, 1)
    else if w.wrap then ({ written with owed := true }, 1)
    else ({ written with discarding := true, marked := false }, 1)
  | .newLine => TextPoint.advance w { a with next := a.next + 1, discarding := false, marked := false }
  | .return => ({ a with next := a.next + 1, discarding := false, marked := false, col := 0 }, 0)

/-- The next unit of a WRITE_TEXT, an owed line advance before the next item, with the cells it counts; none when the items are
done (R75). -/
def TextPoint.unit (w : Window) (items : List TextItem) (a : TextPoint) : Option (TextPoint × Nat) :=
  if a.owed then some (a.advance w) else (items[a.next]?).map (a.item w)

/-! ## Invariants -/

/-- A port that has a session or is being torn down. -/
abbrev PortState.engaged (st : PortState) : Prop := st = .live ∨ st = .lapsed ∨ st = .closing

/-- While the device is not READY every port counts as DETACHED (R103). -/
abbrev State.QuietStart (s : State) : Prop := s.device ≠ .ready → ∀ p, (s.port p).state = .detached

/-- Only a port with a session, or one being torn down, has the engine's slice (R47, R61). -/
abbrev State.SliceEngaged (s : State) : Prop := ∀ p, s.slice = some p → (s.port p).state.engaged

/-- The strip memory is in its canonical form. -/
abbrev State.StripsCanonical (s : State) : Prop := Memory.wf s.memory = true

/-- The window table, the slots, the strip pool and the holdings agree (R7, R9, R13, R16, R19). -/
structure State.TableAgrees (s : State) : Prop where
  slots : ∀ w ∈ s.windows, 1 ≤ w.handle.slot ∧ w.handle.slot ≤ Config.slots
  distinct : (s.windows.map (fun w => w.handle.slot)).Nodup
  current : ∀ w ∈ s.windows, w.handle.gen = s.generationOf w.handle.slot
  mapped : ∀ w ∈ s.windows, w.stripMap.length = stripsOf w.sc w.sr
  pool : (s.available ++ s.retiring ++ (s.windows.map (fun w => w.stripMap)).flatten).Perm (List.range Config.strips)
  windowsHeld : ∀ p, (s.port p).windowsHeld = (s.windows.filter (fun w => w.owner == p)).length
  stripsHeld : ∀ p, (s.port p).stripsHeld = ((s.windows.filter (fun w => w.owner == p)).map (fun w => w.stripMap.length)).sum

/-- No window lies above a window of a higher band (R21). -/
abbrev State.BandsInOrder (s : State) : Prop := s.windows.Pairwise (fun a b => b.band.rank ≤ a.band.rank)

/-- The queues and counts of the link units stay within their bounds (R44, R122, R127, R169). -/
abbrev State.LinksBounded (s : State) : Prop :=
  ∀ p, (s.port p).events.length ≤ Config.eventPlaces
    ∧ ((s.port p).events.filter (fun r => !r.body.isFailed)).length ≤ Config.openEventPlaces
    ∧ (s.port p).lost ≤ 255 ∧ (s.port p).errors ≤ 255
    ∧ (s.port p).queue.length ≤ Config.queueCommands ∧ payloadBytes (s.port p).queue ≤ Config.queueBytes

/-- The engine is never idle while a port is eligible, and heads in flight and parked heads are heads (R45, R47, R49, R58). DESIGN
CHOICE (log 31): a removal waits for a slice of a copy alone; R81 asks for it there, and R51 leaves the order open in other slices. -/
structure State.EngineAgrees (s : State) : Prop where
  quietStart : s.QuietStart
  working : s.slice = none → ∀ p, s.eligible p = false
  inFlight : ∀ p, s.slice = some p → (s.port p).state.engaged ∧ (s.port p).queue ≠ [] ∧ (s.port p).waiter = false
  parked : ∀ p, (s.port p).waiter = true → (s.port p).queue.head?.map (fun c => c.kind) = some .frameMark
  silent : ∀ p, (s.port p).state = .detached ∨ (s.port p).state = .disabled → (s.port p).queue = []
  closing : ∀ p, (s.port p).state = .closing → s.slice ≠ some p → (s.port p).queue = []
  run : s.urgentRun ≤ Config.urgentLimit
  waits : s.waitingRemoval ≠ none → ∃ q c, HeadInFlight s q c ∧ c.kind = .copyRect

/-- What a port holds in each port state (R103, R107, R112, R116, R118). -/
structure State.SessionsAgree (s : State) : Prop where
  quietStart : s.QuietStart
  sliceEngaged : s.SliceEngaged
  lease : ∀ p, (s.port p).state ≠ .live → (s.port p).lease = 0
  grace : ∀ p, (s.port p).state ≠ .lapsed → (s.port p).grace = 0
  ended : ∀ p, ¬ (s.port p).state.takesRecords →
    (s.port p).events = [] ∧ (s.port p).lost = 0 ∧ (s.port p).warned = false ∧ (s.port p).brightness = none
      ∧ (s.port p).tone = none ∧ (s.port p).waiter = false
  noticed : ∀ p, ¬ (s.port p).state.takesRecords → s.slice ≠ some p →
    (s.port p).queue = [] ∧ ∀ w ∈ s.windows, p ∉ w.grants
  gone : ∀ p, ¬ (s.port p).state.engaged →
    (s.port p).bank = Vector.replicate 64 blankPattern ∧ ∀ w ∈ s.windows, w.owner ≠ p

/-- Key focus, the touch capture and the key captures name what they may (R139, R147, R148, R150, R151, R153). -/
structure State.InputAgrees (s : State) : Prop where
  quietStart : s.QuietStart
  focus : ∀ h, s.focus = some h →
    ∃ w, s.windowOf h = some w ∧ w.shown = true ∧ w.keyEligible = true ∧ (s.port w.owner).state = .live
  capture : ∀ h o, s.capture = .captured h o → ∃ w, s.windowOf h = some w ∧ w.owner = o ∧ (s.port o).state = .live
  keyPorts : ∀ k c, (s.key k).capture = some c → ∀ p ∈ c.ports, (s.port p).state.takesRecords = true
  keyCapture : ∀ k, (s.key k).capture.isSome = (s.key k).down
  keyUp : ∀ k, (s.key k).down = false → (s.key k).timer = none
  keyCount : ∀ k, (s.key k).agree < Config.keyAgreement

/-- Every window's exposure and visible cells agree with the stack and the port states (R24). -/
structure State.ExposureAgrees (s : State) : Prop where
  quietStart : s.QuietStart
  sliceEngaged : s.SliceEngaged
  owners : ∀ w ∈ s.windows, (s.port w.owner).state.engaged
  distinct : (s.windows.map (fun w => w.handle.slot)).Nodup
  exposed : s.exposeFrom [] s.windows = s.windows

/-- Every window obeys the geometry rules, and no port's holdings exceed its quotas (R13, R18). -/
structure State.GeometryAgrees (s : State) : Prop where
  quietStart : s.QuietStart
  sliceEngaged : s.SliceEngaged
  emptyStart : s.device ≠ .ready → s.windows = [] ∧ ∀ p, (s.port p).windowsHeld = 0 ∧ (s.port p).stripsHeld = 0
  distinct : (s.windows.map (fun w => w.handle.slot)).Nodup
  geometry : ∀ w ∈ s.windows, geometryOk s.prof w.sc w.sr w.view w.offCol w.offRow = true
  cursor : ∀ w ∈ s.windows, w.curCol < w.sc ∧ w.curRow < w.sr
  quotas : ∀ p, (s.port p).windowsHeld ≤ (s.portProf p).windowQuota ∧ (s.port p).stripsHeld ≤ (s.portProf p).stripQuota

/-- The sounding request is the tone unit's choice, and start sequence numbers are distinct and below the next (R158, R159). -/
structure State.SoundAgrees (s : State) : Prop where
  choice : s.sounding = s.soundingChoice
  started : ∀ p t, (s.port p).tone = some t → t.seq < s.toneSeq
  distinct : ∀ p q t u, (s.port p).tone = some t → (s.port q).tone = some u → t.seq = u.seq → p = q

end Sys2Proof.Machine
end

