-- ==== Sys2Proof/Certificates/Slice0/Obligations.lean ====
section
/-! DEFINITION. Certificates/Slice0/Obligations.lean: the statements for the provers. -/

section Statements

open Sys2Proof Sys2Proof.Machine

/-! ## The step, reset and start-up -/

/-- A step takes the command at the front of the queue and runs it on the state with the queue's rest. -/
def Obligations.StepRunsTheFrontCommand : Prop :=
  ∀ (s : State) (c : Instr) (rest : List Instr),
    step { s with pending := c :: rest } = exec c { s with pending := rest }

/-- On an empty queue the part goes on by itself (the model's choice, log 2): nothing happens while it is held in reset, the slice in
flight comes to its step, and with none in flight a millisecond passes. In that millisecond the time base, the running lease and grace
timers, the tone ages, the key repeat timers and the frame phase move and nothing else (R107, R112, R124, R148, R158), and the events
that fall due at it wait in the queue: warnings, expiries and removals port by port, the edge of a pulse, key repeats, a frame start
at 0, 16 and 33 ms of every 50 (R89) and as many rows of the scan as finish it in 15 ms (R92). -/
def Obligations.EmptyQueueGoesOnByItself : Prop :=
  ∀ s : State, s.pending = [] →
    (s.device = .held → step s = .next s)
    ∧ (∀ p c, s.device ≠ .held → HeadInFlight s p c → step s = .next { s with pending := [sliceOf c.kind p] })
    ∧ (s.device ≠ .held → s.slice = none →
        ∃ t, step s = .next t
          ∧ t.timeBase = s.timeBase + 1
          ∧ (∀ p, t.port p = { s.port p with
              lease := if (s.port p).state = .live then (s.port p).lease - 1 else (s.port p).lease
              grace := if (s.port p).state = .lapsed then (s.port p).grace - 1 else (s.port p).grace
              tone := (s.port p).tone.map (fun u => { u with age := u.age + 1 }) })
          ∧ (∀ k, t.key k = { s.key k with timer := (s.key k).timer.map (fun n => n - 1) })
          ∧ SameStore s t ∧ SameSound s t ∧ SameArbiter s t ∧ t.focus = s.focus ∧ t.capture = s.capture
          ∧ t.device = s.device ∧ t.profile = s.profile ∧ t.profileDefaulted = s.profileDefaulted
          ∧ t.frameNumber = s.frameNumber ∧ t.blinkCount = s.blinkCount ∧ t.latched = s.latched
          ∧ t.brightness = s.brightness ∧ t.scanRow = s.scanRow ∧ t.rowBuffer = s.rowBuffer
          ∧ t.pixelRows = s.pixelRows ∧ t.sampler = s.sampler
          ∧ t.framePhase = (if s.device = .ready then (s.framePhase + 1) % 50 else s.framePhase)
          ∧ (s.device ≠ .ready → t.pending = [])
          ∧ (s.device = .ready → t.pending =
              allPorts.flatMap (fun p =>
                  let q := t.port p
                  (if q.state = .live ∧ q.warned = false ∧ 2 * q.lease = (s.portProf p).leasePeriod then [Instr.leaseWarning p] else [])
                    ++ (if q.state = .live ∧ q.lease = 0 then [.leaseExpiry p] else [])
                    ++ (if q.state = .lapsed ∧ q.grace = 0 then [.graceExpiry p] else [])
                    ++ (match q.tone with
                        | some u => if (u.pattern = .chirp ∧ 40 ≤ u.age)
                            ∨ (u.pattern ≠ .chirp ∧ u.duration ≠ 0 ∧ 100 * u.duration ≤ u.age) then [.toneExpiry p] else []
                        | none => [])
                    ++ (if q.state = .closing then [.teardownRemoval p] else []))
                ++ (match s.sounding.bind (fun p => (t.port p).tone) with
                    | some u => if u.pattern = .pulsed ∧ u.age % 200 = 0 then [.tonePhaseChange] else []
                    | none => [])
                ++ allKeys.flatMap (fun k => if (t.key k).down = true ∧ (t.key k).timer = some 0 then [.repeatReport k] else [])
                ++ (if t.framePhase = 0 ∨ t.framePhase = 16 ∨ t.framePhase = 33 then [.frameStart] else [])
                ++ List.replicate ((s.prof.gridRows + 14) / 15) .scanRowFetch))

/-- What device reset leaves in every block, by the rules that give the values (R9, R19, R43, R50, R56, R65, R91, R98, R102, R103,
R122, R139, R147, R153, R158, R169, R170, R173, R178). DEVICE_RESET puts every block in its reset state and holds the part there;
DEVICE_RESET_END leaves it STARTING at time 0 (R120, R178). The profile lines are driven while the device is STARTING and idle, select
high and clock low, otherwise (R178, R184). The model's choices: the device state while reset is held and the empty queue of commands
at reset (log 3), that both rows keep the commands that wait (log 24), and that nothing happens where RESET is not low and cannot rise
(log 1). -/
def Obligations.ResetLeavesTheStatedValues : Prop :=
  (State.reset.device = .starting ∧ State.reset.timeBase = 0 ∧ State.reset.profile = none
      ∧ State.reset.profileDefaulted = false
      ∧ State.reset.windows = [] ∧ State.reset.available = List.range 1024 ∧ State.reset.retiring = []
      ∧ (∀ k, Memory.read State.reset.memory k = Vector.replicate 16 ⟨0, 0, 0, false, false⟩)
      ∧ (∀ n, State.reset.generationOf n = 0)
      ∧ State.reset.slice = none ∧ State.reset.urgentNext = 0 ∧ State.reset.normalNext = 0 ∧ State.reset.urgentRun = 0
      ∧ State.reset.frameNumber = 0 ∧ State.reset.blinkCount = 0 ∧ State.reset.latched = none ∧ State.reset.brightness = 0
      ∧ State.reset.sampler = ⟨false, 0, none, none⟩ ∧ State.reset.capture = .idle ∧ State.reset.focus = none
      ∧ State.reset.sounding = none ∧ State.reset.sounder = none ∧ State.reset.pending = []
      ∧ (∀ k, State.reset.key k = ⟨false, 0, none, none⟩)
      ∧ (∀ p, (State.reset.port p).state = .detached ∧ (State.reset.port p).epoch = 0 ∧ (State.reset.port p).lease = 0
          ∧ (State.reset.port p).grace = 0 ∧ (State.reset.port p).warned = false ∧ (State.reset.port p).reply = none
          ∧ (State.reset.port p).errors = 0 ∧ (State.reset.port p).duplicate = none ∧ (State.reset.port p).queue = []
          ∧ (State.reset.port p).chain = .none ∧ (State.reset.port p).events = [] ∧ (State.reset.port p).lost = 0
          ∧ (State.reset.port p).windowsHeld = 0 ∧ (State.reset.port p).stripsHeld = 0
          ∧ (State.reset.port p).bank = Vector.replicate 64 blankPattern ∧ (State.reset.port p).brightness = none
          ∧ (State.reset.port p).waiter = false ∧ (State.reset.port p).tone = none
          ∧ State.reset.rdy p = false ∧ State.reset.atn p = false))
  ∧ (∀ s : State,
      exec .deviceReset s = .next { State.reset with device := .held, pending := s.pending }
        ∧ (s.device = .held → exec .deviceResetEnd s = .next { State.reset with pending := s.pending })
        ∧ (s.device ≠ .held → exec .deviceResetEnd s = .next s))
  ∧ (∀ s : State, (s.device = .starting → s.profileLines = .reading)
      ∧ (s.device ≠ .starting → s.profileLines = .idle ∧ s.profileLines.levels = some (true, false)))

/-- PROFILE_LOAD_END on a device that is STARTING and holds no session: the image's profile, or the whole built-in default with the
flag set, takes effect; each port becomes DETACHED or DISABLED; the first frame start is made with an empty list and the default
brightness, and the milliseconds to the next ones count from it (R89; the field that counts them is the model's own, log 2); and the
touch sampler takes its first sample unless touch is disabled (R103, R134, R181, R182). The built-in default has the values of Table
12-1, with the colours of Table 12-2, whose components the manual does not give (log 5). -/
def Obligations.ProfileLoadMakesTheDeviceReady : Prop :=
  (let d := Profile.default_;
    d.gridCols = 80 ∧ d.gridRows = 30 ∧ d.palette = Config.defaultPalette ∧ d.deskCell = ⟨0, 15, 0, false, false⟩
      ∧ d.lapseCell = ⟨177, 15, 1, false, false⟩ ∧ d.defaultBrightness = 70 ∧ d.criticalFloor = 90 ∧ d.touchEnabled = true
      ∧ d.offsetX = 0 ∧ d.offsetY = 0 ∧ d.gainX = 1024 ∧ d.gainY = 1024 ∧ d.moveThreshold = 4
      ∧ (∀ k : KeyId, d.routing.get k = (if k = 7 then .silence else .focus) ∧ d.repeatEnabled.get k = decide (k ≠ 7))
      ∧ d.repeatDelay = 500 ∧ d.repeatInterval = 100
      ∧ ∀ p : Port, (d.ports.get p).enabled = true ∧ (d.ports.get p).maxBand = .alert ∧ (d.ports.get p).windowQuota = 6
        ∧ (d.ports.get p).stripQuota = 256 ∧ (d.ports.get p).urgentPermitted = false ∧ (d.ports.get p).leasePeriod = 2000
        ∧ (d.ports.get p).gracePeriod = 10000)
  ∧ ∀ (s : State) (image : Option (List Byte)) (first : TouchReading),
    s.device = .starting → s.windows = [] → s.slice = none → s.sampler = .reset →
    (∀ p, (s.port p).state = .detached ∧ (s.port p).waiter = false) →
    ∃ t prof, exec (.profileLoadEnd image first) s = .next t
      ∧ (judgeImage image = .ok prof ∧ t.profileDefaulted = false
          ∨ (∃ e, judgeImage image = .error e) ∧ prof = Profile.default_ ∧ t.profileDefaulted = true)
      ∧ t.device = .ready ∧ t.profile = some prof
      ∧ (∀ p, t.port p = { s.port p with state := if (prof.ports.get p).enabled then .detached else .disabled })
      ∧ t.frameNumber = s.frameNumber + 1 ∧ t.blinkCount = (s.blinkCount + 1) % 60
      ∧ t.latched = some ⟨[], none⟩ ∧ t.brightness = prof.defaultBrightness ∧ t.scanRow = 0 ∧ t.framePhase = 0
      ∧ t.available = s.available ++ s.retiring ∧ t.retiring = [] ∧ t.waitingRemoval = s.waitingRemoval
      ∧ t.sampler = (match first with
          | some (x, y) => if prof.touchEnabled then ⟨false, 1, some (mapTouch prof x y), none⟩ else .reset
          | none => .reset)
      ∧ t.timeBase = s.timeBase ∧ t.windows = [] ∧ t.generations = s.generations ∧ t.memory = s.memory
      ∧ SameInput s t ∧ SameSound s t ∧ SameArbiter s t ∧ t.rowBuffer = s.rowBuffer ∧ t.pixelRows = s.pixelRows
      ∧ t.pending = s.pending

/-- The image is judged in the order of R181: one that does not answer or has no marker is absent, then come the version, the CRC and
the ranges of Table 12-1. An image that passes is loaded, each field from its bytes as R180 lays them out (byte i of the body is byte
5 + i of the image), and a loaded profile has every field in its range. The CRC-16 is the one R180 gives: polynomial x¹⁶ + x¹² + x⁵ + 1,
initial value FFFFh, most significant bit first, and 29B1h for the nine bytes 31h to 39h. That an image which ends before its CRC has a
wrong one is the model's reading (log 22). -/
def Obligations.LoadedProfileIsInRange : Prop :=
  (let shifted (c : BitVec 16) : BitVec 16 := if c.getLsbD 15 = true then (c <<< 1) ^^^ 0x1021#16 else c <<< 1;
    crc16 [] = 0xFFFF#16
      ∧ (∀ (bytes : List Byte) (b : Byte), crc16 (bytes ++ [b]) = Nat.repeat shifted 8 (crc16 bytes ^^^ (b ++ 0#8)))
      ∧ crc16 [0x31, 0x32, 0x33, 0x34, 0x35, 0x36, 0x37, 0x38, 0x39] = 0x29B1#16)
    ∧ judgeImage none = .error .absent
    ∧ (∀ image : List Byte, image.take 2 ≠ [0x56#8, 0x53#8] → judgeImage (some image) = .error .absent)
    ∧ (∀ image : List Byte, image.take 2 = [0x56#8, 0x53#8] → byteAt image 2 ≠ 1 ∨ wordAt image 3 ≠ 132 →
        judgeImage (some image) = .error .version)
    ∧ (∀ image : List Byte, image.take 2 = [0x56#8, 0x53#8] → byteAt image 2 = 1 → wordAt image 3 = 132 →
        image.length < 139 ∨ wordAt image 137 ≠ (crc16 (image.take 137)).toNat → judgeImage (some image) = .error .crc)
    ∧ (∀ image : List Byte, image.take 2 = [0x56#8, 0x53#8] → byteAt image 2 = 1 → wordAt image 3 = 132 →
        139 ≤ image.length → wordAt image 137 = (crc16 (image.take 137)).toNat →
        let b (i : Nat) : Nat := byteAt image (5 + i)
        let w (i : Nat) : Nat := wordAt image (5 + i)
        let signed (i : Nat) : Int := (BitVec.ofNat 16 (w i)).toInt
        let glyph (i : Nat) : Nat := b i + 256 * (b (i + 1) % 2)
        let inside := 40 ≤ b 0 ∧ b 0 ≤ 100 ∧ 15 ≤ b 1 ∧ b 1 ≤ 40 ∧ glyph 50 ≤ 255 ∧ glyph 53 ≤ 255 ∧ b 56 ≤ 100 ∧ b 57 ≤ 100
          ∧ b 58 ≤ 1 ∧ -2048 ≤ signed 59 ∧ signed 59 ≤ 2047 ∧ -2048 ≤ signed 61 ∧ signed 61 ≤ 2047
          ∧ 512 ≤ w 63 ∧ w 63 ≤ 2047 ∧ 512 ≤ w 65 ∧ w 65 ≤ 2047 ∧ 1 ≤ b 67 ∧ b 67 ≤ 15
          ∧ (∀ k, k < 8 → b (68 + k) ≤ 7 ∧ b (76 + k) ≤ 1) ∧ 25 ≤ b 84 ∧ 5 ≤ b 85 ∧ b 85 ≤ 127
          ∧ ∀ q, q < 4 → b (86 + 8 * q) ≤ 1 ∧ b (87 + 8 * q) ≤ 2 ∧ b (88 + 8 * q) ≤ 24 ∧ w (89 + 8 * q) ≤ 1024
              ∧ b (91 + 8 * q) ≤ 1 ∧ 1 ≤ b (92 + 8 * q) ∧ b (93 + 8 * q) ≤ 60
        (¬ inside → judgeImage (some image) = .error .range)
        ∧ (inside → ∃ p : Profile, judgeImage (some image) = .ok p
            ∧ p.gridCols = b 0 ∧ p.gridRows = b 1
            ∧ (∀ i : Fin 16, p.palette.get i = ⟨image.getD (7 + 3 * i) 0, image.getD (8 + 3 * i) 0, image.getD (9 + 3 * i) 0⟩)
            ∧ p.deskCell = cellAt image 55 ∧ p.lapseCell = cellAt image 58
            ∧ p.defaultBrightness = b 56 ∧ p.criticalFloor = b 57 ∧ (p.touchEnabled = true ↔ b 58 = 1)
            ∧ p.offsetX = signed 59 ∧ p.offsetY = signed 61 ∧ p.gainX = w 63 ∧ p.gainY = w 65 ∧ p.moveThreshold = b 67
            ∧ (∀ k : KeyId, some (p.routing.get k)
                  = [Routing.focus, .port 0, .port 1, .port 2, .port 3, .all, .silence, .none][b (68 + k)]?
                ∧ (p.repeatEnabled.get k = true ↔ b (76 + k) = 1))
            ∧ p.repeatDelay = 10 * b 84 ∧ p.repeatInterval = 10 * b 85
            ∧ ∀ q : Port, ((p.ports.get q).enabled = true ↔ b (86 + 8 * q) = 1) ∧ (p.ports.get q).maxBand.rank = b (87 + 8 * q)
                ∧ (p.ports.get q).windowQuota = b (88 + 8 * q) ∧ (p.ports.get q).stripQuota = w (89 + 8 * q)
                ∧ ((p.ports.get q).urgentPermitted = true ↔ b (91 + 8 * q) = 1)
                ∧ (p.ports.get q).leasePeriod = 100 * b (92 + 8 * q) ∧ (p.ports.get q).gracePeriod = 1000 * b (93 + 8 * q)))
    ∧ (∀ (image : List Byte) (p : Profile), judgeImage (some image) = .ok p →
        40 ≤ p.gridCols ∧ p.gridCols ≤ 100 ∧ 15 ≤ p.gridRows ∧ p.gridRows ≤ 40
          ∧ p.deskCell.glyph ≤ 255 ∧ p.lapseCell.glyph ≤ 255 ∧ p.defaultBrightness ≤ 100 ∧ p.criticalFloor ≤ 100
          ∧ -2048 ≤ p.offsetX ∧ p.offsetX ≤ 2047 ∧ -2048 ≤ p.offsetY ∧ p.offsetY ≤ 2047
          ∧ 512 ≤ p.gainX ∧ p.gainX ≤ 2047 ∧ 512 ≤ p.gainY ∧ p.gainY ≤ 2047
          ∧ 1 ≤ p.moveThreshold ∧ p.moveThreshold ≤ 15
          ∧ 250 ≤ p.repeatDelay ∧ p.repeatDelay ≤ 2550 ∧ 50 ≤ p.repeatInterval ∧ p.repeatInterval ≤ 1270
          ∧ ∀ q : Port, (p.ports.get q).windowQuota ≤ 24 ∧ (p.ports.get q).stripQuota ≤ 1024
              ∧ 100 ≤ (p.ports.get q).leasePeriod ∧ (p.ports.get q).leasePeriod ≤ 25500
              ∧ (p.ports.get q).gracePeriod ≤ 60000)

/-! ## Host links -/

/-- The NAK answers to frames that passed the link checks: NAK_STARTING to every kind while the device is STARTING (R179), and the
answers of Table 6-2 by port state once it is READY (R104, R106, R114, R119, R177). A NAK changes nothing but the reply buffer and the
hold of the reply it replaces (R104, R130). In the model's own fields, placing a reply also cuts a FETCH under way on the link, whose
end then consumes nothing, and leaves data out held at 0 (R166); both are the model's choice (log 16). -/
def Obligations.FramesAreRefusedByDeviceAndPortState : Prop :=
  (∀ (s : State) (p : Port) (tag : Byte), s.device = .starting →
      (∀ i ∈ [Instr.attach p tag, .renew p tag, .detach p tag, .readEvents p tag, .status p tag, .abort p tag],
          exec i s = .next (s.placeReply p ⟨.nak .starting, tag, .none⟩))
      ∧ (∀ kind flags payload, payload.length ≤ Config.maxPayload →
          exec (.commandAdmission p kind flags tag payload) s = .next (s.placeReply p ⟨.nak .starting, tag, .none⟩)))
  ∧ (∀ (s : State) (p : Port) (tag : Byte), s.device = .ready →
      ((s.port p).state = .disabled →
        (∀ i ∈ [Instr.attach p tag, .renew p tag, .detach p tag, .readEvents p tag, .abort p tag],
          exec i s = .next (s.placeReply p ⟨.nak .disabled, tag, .none⟩))
        ∧ ∀ kind flags payload, payload.length ≤ Config.maxPayload →
          exec (.commandAdmission p kind flags tag payload) s = .next (s.placeReply p ⟨.nak .disabled, tag, .none⟩))
      ∧ ((s.port p).state = .detached →
        (∀ i ∈ [Instr.renew p tag, .detach p tag, .readEvents p tag, .abort p tag],
          exec i s = .next (s.placeReply p ⟨.nak .state, tag, .none⟩))
        ∧ ∀ kind flags payload, payload.length ≤ Config.maxPayload →
          exec (.commandAdmission p kind flags tag payload) s = .next (s.placeReply p ⟨.nak .state, tag, .none⟩))
      ∧ ((s.port p).state = .live ∨ (s.port p).state = .lapsed →
          exec (.attach p tag) s = .next (s.placeReply p ⟨.nak .state, tag, .none⟩))
      ∧ ((s.port p).state = .lapsed → ∀ kind flags payload, payload.length ≤ Config.maxPayload →
          exec (.commandAdmission p kind flags tag payload) s = .next (s.placeReply p ⟨.nak .state, tag, .none⟩))
      ∧ ((s.port p).state = .closing →
        exec (.attach p tag) s = .next (s.placeReply p ⟨.nak .busy, tag, .none⟩)
        ∧ (∀ i ∈ [Instr.renew p tag, .readEvents p tag, .abort p tag],
          exec i s = .next (s.placeReply p ⟨.nak .state, tag, .none⟩))
        ∧ exec (.detach p tag) s = .next (s.placeReply p ⟨.ack, tag, .detach (s.port p).epoch .closing⟩)
        ∧ ∀ kind flags payload, payload.length ≤ Config.maxPayload →
          exec (.commandAdmission p kind flags tag payload) s = .next (s.placeReply p ⟨.nak .state, tag, .none⟩))
      ∧ (∀ r, s.placeReply p r = s.setPort p { s.port p with
          reply := some r
          events := (s.port p).events.map (fun e => { e with held := false })
          transfer := (s.port p).transfer.map (fun f => { f with live := false })
          dataOut := [] }))

/-- A SEND that fails the link checks, in their order (R168): its NAK carries the frame's tag, or 00h where the header did not arrive,
the first two kinds of failure raise the link error count up to 255 (R169), and nothing else changes. A SEND whose bytes pass the
checks is answered as the row of its frame is, for every link request and every queued command (R104, R168). The lead byte 6Eh makes a
transaction a SEND of the bytes after it and 9Bh makes it a FETCH; a transaction with another lead byte, or with none, changes no
state of the part (R166). Data out is held at 0 in a SEND and in an ignored transaction, which is the empty dataOut field (R166, log
16). -/
def Obligations.TransactionsAreJudgedByTheirBytes : Prop :=
  ((∀ (s : State) (p : Port) (bytes : List Byte), s.device ≠ .held →
        let tag := bytes.getD 2 0
        let len := wordAt bytes 3
        let more := { s.port p with errors := if (s.port p).errors < 255 then (s.port p).errors + 1 else (s.port p).errors }
        (bytes.length < 5 →
          exec (.nakFraming p bytes) s = .next ((s.setPort p more).placeReply p ⟨.nak .framing, 0, .none⟩))
        ∧ (5 ≤ bytes.length → 512 < len → exec (.nakFraming p bytes) s = .next (s.placeReply p ⟨.nak .length, tag, .none⟩))
        ∧ (5 ≤ bytes.length → len ≤ 512 → bytes.length < 6 + len →
          exec (.nakFraming p bytes) s = .next ((s.setPort p more).placeReply p ⟨.nak .framing, tag, .none⟩))
        ∧ (len ≤ 512 → 6 + len ≤ bytes.length → bytes.getD (5 + len) 0 ≠ crc8 (bytes.take (5 + len)) →
          exec (.nakFraming p bytes) s = .next ((s.setPort p more).placeReply p ⟨.nak .check, tag, .none⟩))
        ∧ (len ≤ 512 → 6 + len ≤ bytes.length → bytes.getD (5 + len) 0 = crc8 (bytes.take (5 + len)) →
          frameKindOf (byteAt bytes 0) = none →
          exec (.nakFraming p bytes) s = .next (s.placeReply p ⟨.nak .kind, tag, .none⟩)))
    ∧ (∀ (s : State) (p : Port) (bytes : List Byte) (flags tag : Byte) (payload : List Byte),
        (judgeSend bytes = .frame .attach flags tag payload → exec (.nakFraming p bytes) s = exec (.attach p tag) s)
        ∧ (judgeSend bytes = .frame .detach flags tag payload → exec (.nakFraming p bytes) s = exec (.detach p tag) s)
        ∧ (judgeSend bytes = .frame .renew flags tag payload → exec (.nakFraming p bytes) s = exec (.renew p tag) s)
        ∧ (judgeSend bytes = .frame .readEvents flags tag payload → exec (.nakFraming p bytes) s = exec (.readEvents p tag) s)
        ∧ (judgeSend bytes = .frame .status flags tag payload → exec (.nakFraming p bytes) s = exec (.status p tag) s)
        ∧ (judgeSend bytes = .frame .abort flags tag payload → exec (.nakFraming p bytes) s = exec (.abort p tag) s)
        ∧ (∀ k, judgeSend bytes = .frame (.queued k) flags tag payload →
            exec (.nakFraming p bytes) s = exec (.commandAdmission p k flags tag payload) s)))
  ∧ (∀ (s : State) (p : Port), s.device ≠ .held →
      (∀ bytes : List Byte, bytes.head? ≠ some 0x6E#8 → bytes.head? ≠ some 0x9B#8 →
        exec (.ignoredTransaction p bytes) s = .next (s.setPort p { s.port p with dataOut := [] }))
      ∧ (∀ rest : List Byte, exec (.ignoredTransaction p (0x6E#8 :: rest)) s = exec (.nakFraming p rest) s
        ∧ exec (.ignoredTransaction p (0x9B#8 :: rest)) s = exec (.fetch p (.whole rest.length)) s)
      ∧ (∀ bytes : List Byte, ∃ t, exec (.nakFraming p bytes) s = .next t
        ∧ (t.port p).dataOut = [] ∧ ∀ i, (t.port p).dataOutAt i = 0))

/-- Every frame that a host can build reads back as it was built: a link request or a queued command of every kind with every payload
of up to 512 bytes, whatever bytes follow its check byte, is judged to be that request or command (R167, R168, Table 11-1). The kind
codes are those of Table 11-3. The check byte is the CRC-8 of R167: polynomial x⁸ + x² + x + 1, initial value 00h, most significant bit
first, and F4h for the nine bytes 31h to 39h. -/
def Obligations.FramesReadBackAsBuilt : Prop :=
  (let shifted (c : Byte) : Byte := if c.getLsbD 7 = true then (c <<< 1) ^^^ 0x07#8 else c <<< 1;
    crc8 [] = 0
      ∧ (∀ (bytes : List Byte) (b : Byte), crc8 (bytes ++ [b]) = Nat.repeat shifted 8 (crc8 bytes ^^^ b))
      ∧ crc8 [0x31, 0x32, 0x33, 0x34, 0x35, 0x36, 0x37, 0x38, 0x39] = 0xF4#8) ∧
  (∀ (code : Byte) (kind : FrameKind) (flags tag : Byte) (payload extra : List Byte), payload.length ≤ 512 →
    ((code, kind) ∈ [(1#8, FrameKind.attach), (2#8, .detach), (3#8, .renew), (4#8, .readEvents), (5#8, .status), (6#8, .abort)]
      ∨ ∃ k, code = byte (kindCode k) ∧ kind = .queued k) →
    let frame := [code, flags, tag, byte (payload.length / 256), byte payload.length] ++ payload
    judgeSend (frame ++ [crc8 frame] ++ extra) = .frame kind flags tag payload)
  ∧ [CommandKind.createWindow, .destroyWindow, .placeWindow, .showWindow, .hideWindow, .raiseWindow, .lowerWindow, .setBand,
      .setWindowModes, .grantRead, .revokeRead, .queryWindow].map kindCode
      = [0x20, 0x21, 0x22, 0x23, 0x24, 0x25, 0x26, 0x27, 0x28, 0x29, 0x2A, 0x2B]
  ∧ [CommandKind.setPen, .setCursor, .writeText, .putCells, .fillRect, .copyRect, .shiftRect, .readCells, .loadGlyphs].map kindCode
      = [0x30, 0x31, 0x32, 0x33, 0x34, 0x35, 0x36, 0x37, 0x38]
  ∧ [CommandKind.requestFocus, .releaseFocus, .toneStart, .toneStop, .setBrightness, .frameMark].map kindCode
      = [0x40, 0x41, 0x42, 0x43, 0x44, 0x45]

/-- RDY and ATN are high exactly under the conditions of R175 and R132. -/
def Obligations.LinesFollowTheirConditions : Prop :=
  ∀ (s : State) (p : Port),
    (s.rdy p = true ↔ s.device = .ready ∧ (s.port p).state = .live ∧ (s.port p).queue.length < 8
      ∧ 512 ≤ 1024 - ((s.port p).queue.map (fun c => c.payload.length)).sum)
    ∧ (s.atn p = true ↔ ((s.port p).state = .live ∨ (s.port p).state = .lapsed)
      ∧ ((s.port p).events ≠ [] ∨ 0 < (s.port p).lost))

/-! ## Sessions -/

/-- ATTACH on a DETACHED port starts a session in one step, with the reply of Table 6-3, and changes nothing else (R105). RENEW on a
LIVE port restarts its lease and changes nothing else (R109). On a LAPSED port it restores the session: the port is LIVE with a fresh
lease, exposure is recomputed under the LIVE rows, and the arbiter may grant its waiting head (R41, R60, R113). -/
def Obligations.AttachAndRenewRunTheSession : Prop :=
  (∀ (s : State) (p : Port) (tag : Byte), s.device = .ready → (s.port p).state = .detached →
      exec (.attach p tag) s = .next ((s.setPort p { s.port p with
          state := .live, epoch := (s.port p).epoch + 1, lease := (s.portProf p).leasePeriod, grace := 0, warned := false
          errors := 0, duplicate := none, chain := .none }).placeReply p
        ⟨.ack, tag, .attach ((s.port p).epoch + 1) s.prof.gridCols s.prof.gridRows (s.portProf p)⟩))
  ∧ (∀ (s : State) (p : Port) (tag : Byte), s.device = .ready →
      let period := (s.portProf p).leasePeriod
      let live := s.setPort p { s.port p with state := .live, lease := period, grace := 0, warned := false }
      ((s.port p).state = .live →
        exec (.renew p tag) s = .next (live.placeReply p ⟨.ack, tag, .renew (s.port p).epoch period false⟩))
      ∧ ((s.port p).state = .lapsed →
        exec (.renew p tag) s
          = .next ((live.recomputeExposure.placeReply p ⟨.ack, tag, .renew (s.port p).epoch period true⟩).arbitrate)))

/-- DETACH on a LIVE or LAPSED port closes it, in every block, and is answered with the state it found (R115, R116). A grace
expiry, and a lease expiry with a grace period of 0, close the port alike and are answered by nothing (R110, R112). A key capture
loses the port and keeps its other ports in their order, its handle, and itself where no port is left (R151); a window's grant list
loses the port and keeps the others, and the rest of the window stays (R42). -/
def Obligations.DetachAndExpiryCloseThePort : Prop :=
  (∀ (p : Port) (k : KeyRec),
    (k.capture = none → KeyRec.dropPort p k = k)
    ∧ ∀ c, k.capture = some c → ∃ ports, KeyRec.dropPort p k = { k with capture := some { c with ports := ports } }
      ∧ ports.Sublist c.ports ∧ ∀ q, ports.count q = if q = p then 0 else c.ports.count q)
  ∧ (∀ (p : Port) (w : Window), ∃ grants, Window.ungrant p w = { w with grants := grants }
      ∧ grants.Sublist w.grants ∧ ∀ q, grants.count q = if q = p then 0 else w.grants.count q)
  ∧ ∀ (s : State) (p : Port) (tag : Byte),
    (∀ st, s.device = .ready → (s.port p).state = st → st = .live ∨ st = .lapsed →
      ∃ u, exec (.detach p tag) s = .next (u.placeReply p ⟨.ack, tag, .detach (s.port p).epoch st⟩) ∧ EntersClosing s u p)
    ∧ ((s.port p).state = .lapsed → (s.port p).grace = 0 →
      ∃ t, exec (.graceExpiry p) s = .next t ∧ EntersClosing s t p)
    ∧ ((s.port p).state = .live → (s.port p).lease = 0 → (s.portProf p).gracePeriod = 0 →
      ∃ t, exec (.leaseExpiry p) s = .next t ∧ EntersClosing s t p)

/-- A lease expiry with a grace period above 0 is a lapse (R110, R111): the port is LAPSED with its grace running, its BASE tone
request ends and any other goes on, focus and capture leave its windows, and its queue, windows and cells are kept; the
records it posts to an empty event queue are LEASE_LAPSED, then the FOCUS_LOST, TOUCH_CANCEL and TONE_ENDED that are due, in this
order; and exposure is recomputed after them, with its events (R40). -/
def Obligations.LeaseExpiryLapsesThePort : Prop :=
  ∀ (s : State) (p : Port), (s.port p).state = .live → (s.port p).lease = 0 → 0 < (s.portProf p).gracePeriod →
    ∃ t : State, exec (.leaseExpiry p) s = .next t.recomputeExposure
      ∧ OnlyRecords { s.port p with
          state := .lapsed, lease := 0, grace := (s.portProf p).gracePeriod
          tone := (s.port p).tone.filter (fun u => u.band != .base) } (t.port p)
      ∧ SameOthers s t p ∧ t.windows = s.windows
      ∧ t.focus = (if s.focusOwner = some p then none else s.focus)
      ∧ t.capture = (match s.capture with | .captured h o => if o = p then .orphan else .captured h o | c => c)
      ∧ t.keys = s.keys ∧ t.memory = s.memory ∧ t.generations = s.generations ∧ t.available = s.available
      ∧ t.retiring = s.retiring ∧ t.waitingRemoval = s.waitingRemoval ∧ SamePanel s t ∧ SameArbiter s t ∧ t.toneSeq = s.toneSeq
      ∧ t.sounding = (match (s.port p).tone with
          | some u => if u.band = .base then t.soundingChoice else s.sounding
          | none => s.sounding)
      ∧ t.sounder = (match (s.port p).tone with
          | some u => if u.band = .base then t.drivenPitch t.soundingChoice else s.sounder
          | none => s.sounder)
      ∧ ((s.port p).events = [] →
          (t.port p).events = [⟨.leaseLapsed (s.portProf p).gracePeriod, s.timeBase, none, false⟩]
              ++ (match s.focusWindow with
                  | some w => if w.owner = p then [⟨.focusLost .lapsed, s.timeBase, some w.handle, false⟩] else []
                  | none => [])
              ++ (match s.capture with
                  | .captured h o => if o = p then [⟨.touchCancel .lapsed, s.timeBase, some h, false⟩] else []
                  | _ => [])
              ++ (match (s.port p).tone with
                  | some u => if u.band = .base ∧ u.endReport = true then
                      [⟨.toneEnded u.tag .lapsed, s.timeBase, none, false⟩] else []
                  | none => []))

/-- A lease warning sets the flag and posts LEASE_WARNING with the remaining lease; a warning, a lease expiry or a grace expiry
that is not due changes nothing (R108, R110, R112; that it changes nothing is the model's choice, log 1). -/
def Obligations.LeaseWarningIsPostedOnce : Prop :=
  ∀ (s : State) (p : Port),
    ((s.port p).state = .live → (s.port p).warned = false → 2 * (s.port p).lease = (s.portProf p).leasePeriod →
      exec (.leaseWarning p) s
        = .next ((s.setPort p { s.port p with warned := true }).post p (.leaseWarning (s.port p).lease) none))
    ∧ ((s.port p).state ≠ .live ∨ (s.port p).warned = true ∨ 2 * (s.port p).lease ≠ (s.portProf p).leasePeriod →
        exec (.leaseWarning p) s = .next s)
    ∧ ((s.port p).state ≠ .live ∨ (s.port p).lease ≠ 0 → exec (.leaseExpiry p) s = .next s)
    ∧ ((s.port p).state ≠ .lapsed ∨ (s.port p).grace ≠ 0 → exec (.graceExpiry p) s = .next s)

/-! ## Event queues -/

/-- A posted record (R125 to R127): dropped by a port that is CLOSING, DETACHED or DISABLED; else it joins the tail when there is
a place; a TOUCH_MOVE without a place folds into the newest record when that is an unheld TOUCH_MOVE of the same handle; any other
record without a place is lost and counted up to 255. Nothing else changes. -/
def Obligations.PostedRecordsJoinCoalesceOrAreLost : Prop :=
  ∀ (s : State) (p : Port) (body : EventBody) (h : Option Handle),
    let es := (s.port p).events
    let r : Record := ⟨body, s.timeBase, h, false⟩
    let place := es.length < 16 ∧ ((∃ x, body = .failed x) ∨ (es.filter (fun e => !e.body.isFailed)).length < 14)
    let folds (init : List Record) (last : Record) : Prop :=
      es = init ++ [last] ∧ (∃ q, body = .touchMove q) ∧ (∃ q, last.body = .touchMove q) ∧ last.held = false ∧ last.handle = h
    ((s.port p).state ≠ .live ∧ (s.port p).state ≠ .lapsed → s.post p body h = s)
    ∧ ((s.port p).state = .live ∨ (s.port p).state = .lapsed →
      (place → s.post p body h = s.setPort p { s.port p with events := es ++ [r] })
      ∧ (∀ init last, ¬ place → folds init last →
          s.post p body h = s.setPort p { s.port p with events := init ++ [{ last with body := body, time := s.timeBase }] })
      ∧ (¬ place → (¬ ∃ init last, folds init last) →
          s.post p body h
            = s.setPort p { s.port p with lost := if (s.port p).lost < 255 then (s.port p).lost + 1 else (s.port p).lost }))

/-- READ_EVENTS on a LIVE or LAPSED port (R129, R130): the reply carries the oldest unheld records, at most 8, with the lost count
and the count of the others; exactly those records are held afterwards, and no record is removed, reordered or changed. As any reply
does, it cuts a FETCH under way and leaves data out held at 0 (the model's choice, log 16). The reply's records have the bytes of
Tables 11-2 and 11-5; the codes of reasons and classes are read from R174 (log 8), and the generation byte of an absent handle, which
the manual does not give, is one free value (log 7). -/
def Obligations.ReadEventsHoldsTheOldestRecords : Prop :=
  (∀ (s : State) (p : Port) (tag : Byte), s.device = .ready → (s.port p).state = .live ∨ (s.port p).state = .lapsed →
    let rs := ((s.port p).events.filter (fun r => !r.held)).take 8
    ∃ es, exec (.readEvents p tag) s = .next (s.setPort p { s.port p with
        events := es
        reply := some ⟨.ack, tag, .events rs (s.port p).lost ((s.port p).events.length - rs.length)⟩
        transfer := (s.port p).transfer.map (fun f => { f with live := false })
        dataOut := [] })
      ∧ es.map (fun r => { r with held := false }) = (s.port p).events.map (fun r => { r with held := false })
      ∧ (es.filter (fun r => r.held)).map (fun r => { r with held := false }) = rs)
  ∧ (let word (n : Nat) : List Byte := [byte (n / 256), byte n]
    let lays (b : EventBody) (code : Nat) (bytes : List Byte) : Prop := b.code = code ∧ b.bytes = bytes
    (∀ rs lost remaining, (ReplyBody.events rs lost remaining).bytes
        = [byte rs.length, byte lost, byte remaining] ++ (rs.map Record.bytes).flatten)
    ∧ (∀ r : Record, r.bytes = [byte r.body.code] ++ word r.time.toNat
        ++ (match r.handle with | some h => [byte h.slot, h.gen] | none => [0, Config.absentGeneration])
        ++ [byte r.body.bytes.length] ++ r.body.bytes)
    ∧ (∀ q : Pixel, lays (.touchPress q) 1 (word q.x ++ word q.y) ∧ lays (.touchMove q) 2 (word q.x ++ word q.y)
        ∧ lays (.touchRelease q) 3 (word q.x ++ word q.y))
    ∧ lays (.touchCancel .removed) 4 [0] ∧ lays (.touchCancel .lapsed) 4 [1]
    ∧ (∀ k : KeyId, lays (.keyDown k) 5 [byte k] ∧ lays (.keyRepeat k) 6 [byte k] ∧ lays (.keyUp k) 7 [byte k])
    ∧ lays .focusGained 8 [] ∧ lays (.focusLost .hidden) 9 [0] ∧ lays (.focusLost .removed) 9 [1] ∧ lays (.focusLost .modes) 9 [2]
    ∧ lays (.focusLost .lapsed) 9 [3] ∧ lays (.focusLost .released) 9 [4] ∧ lays (.focusLost .moved) 9 [5]
    ∧ (∀ n, lays (.exposure .full n) 10 (0 :: word n) ∧ lays (.exposure .part n) 10 (1 :: word n)
        ∧ lays (.exposure .none n) 10 (2 :: word n))
    ∧ (∀ r : Report, lays (.done r) 11 r.bytes ∧ lays (.failed r) 12 r.bytes)
    ∧ (∀ ms, lays (.leaseWarning ms) 13 (word ms) ∧ lays (.leaseLapsed ms) 14 (word ms))
    ∧ (∀ tag, lays (.toneEnded tag .elapsed) 15 [tag, 0] ∧ lays (.toneEnded tag .stopped) 15 [tag, 1]
        ∧ lays (.toneEnded tag .replaced) 15 [tag, 2] ∧ lays (.toneEnded tag .silenced) 15 [tag, 3]
        ∧ lays (.toneEnded tag .lapsed) 15 [tag, 4]))

/-- A FETCH (R131, R171): a complete one consumes the reply, with the records it held and the lost count it reported; one that ends
early leaves everything as it was; an empty buffer shifts out the EMPTY reply and consumes nothing. A port that enters CLOSING while a
FETCH is shifting empties the buffer, by a grace expiry or by a lease expiry without a grace period; the FETCH goes on with the bytes
it began, and its end consumes nothing and changes nothing else (R171). The same is stated of a DETACH, which the model allows during
a FETCH though it cannot come on the link that is fetching; its reply is in the buffer afterwards (log 16). A reply's bytes are those
of Tables 11-1 and 11-2, closed by their CRC-8 (R167). The bytes shifted out stand in dataOut (log 16). -/
def Obligations.FetchConsumesACompleteReply : Prop :=
  (∀ (s : State) (p : Port) (n : Nat), s.device ≠ .held →
      (∀ r, (s.port p).reply = some r → r.bytes.length ≤ n →
        exec (.fetch p (.whole n)) s = .next (s.setPort p { s.port p with
          transfer := none, dataOut := r.bytes.take n ++ List.replicate (n - r.bytes.length) 0, reply := none
          events := (s.port p).events.filter (fun e => !e.held)
          lost := (s.port p).lost - (match r.body with | .events _ lost _ => lost | _ => 0) }))
      ∧ (∀ r, (s.port p).reply = some r → n < r.bytes.length →
        exec (.fetch p (.whole n)) s = .next (s.setPort p { s.port p with transfer := none, dataOut := r.bytes.take n }))
      ∧ ((s.port p).reply = none →
        exec (.fetch p (.whole n)) s = .next (s.setPort p { s.port p with
          transfer := none, dataOut := [0, 0, 0, 0, 0].take n ++ List.replicate (n - 5) 0 })))
  ∧ (∀ (s : State) (p : Port) (n : Nat) (r : Reply) (i : Instr), s.device ≠ .held → (s.port p).reply = some r →
      (i = .graceExpiry p ∧ (s.port p).state = .lapsed ∧ (s.port p).grace = 0)
        ∨ (i = .leaseExpiry p ∧ (s.port p).state = .live ∧ (s.port p).lease = 0 ∧ (s.portProf p).gracePeriod = 0) →
      ∃ s1 s2, exec (.fetch p .lead) s = .next s1 ∧ exec i s1 = .next s2
        ∧ (s2.port p).transfer = some ⟨r.bytes, false⟩ ∧ (s2.port p).reply = none ∧ (s2.port p).events = []
        ∧ exec (.fetch p (.rise n)) s2 = .next (s2.setPort p { s2.port p with
            transfer := none, dataOut := r.bytes.take n ++ List.replicate (n - r.bytes.length) 0 }))
  ∧ (∀ (s : State) (p : Port) (n : Nat) (tag : Byte) (r : Reply), s.device = .ready → (s.port p).state = .live →
      (s.port p).reply = some r →
      ∃ s1 s2 s3, exec (.fetch p .lead) s = .next s1 ∧ exec (.detach p tag) s1 = .next s2
        ∧ exec (.fetch p (.rise n)) s2 = .next s3
        ∧ (s3.port p).dataOut = r.bytes.take n ++ List.replicate (n - r.bytes.length) 0
        ∧ (s3.port p).reply = (s2.port p).reply ∧ (s2.port p).reply ≠ none ∧ (s3.port p).events = [])
  ∧ (let word (n : Nat) : List Byte := [byte (n / 256), byte n]
    let yes (b : Bool) : Byte := if b = true then 1 else 0
    (∀ r : Reply,
        let head := [byte r.code.code, r.tag] ++ word r.body.bytes.length ++ r.body.bytes
        r.bytes = head ++ [crc8 head])
    ∧ [ReplyCode.empty, .ack, .ackDuplicate].map ReplyCode.code = [0, 1, 2]
    ∧ [NakReason.framing, .check, .kind, .length, .starting, .disabled, .state, .busy, .full].map (fun n => ReplyCode.code (.nak n))
        = [0x10, 0x11, 0x12, 0x13, 0x14, 0x15, 0x16, 0x17, 0x18]
    ∧ ReplyBody.none.bytes = [] ∧ (∀ n b, (ReplyBody.admission n b).bytes = [byte n] ++ word b)
    ∧ (∀ epoch cols rows (q : PortProfile), (ReplyBody.attach epoch cols rows q).bytes
        = [epoch, byte cols, byte rows, byte q.maxBand.rank, byte q.windowQuota] ++ word q.stripQuota ++ [yes q.urgentPermitted]
          ++ word q.leasePeriod ++ word q.gracePeriod)
    ∧ [Band.base, .alert, .critical].map Band.rank = [0, 1, 2]
    ∧ (∀ epoch lease restored, (ReplyBody.renew epoch lease restored).bytes = [epoch] ++ word lease ++ [yes restored])
    ∧ (∀ epoch st, (ReplyBody.detach epoch st).bytes = [epoch, byte st.code])
    ∧ (∀ n stopped, (ReplyBody.abort n stopped).bytes = [byte n, yes stopped]))

/-- STATUS is taken in every port state and answered with the part's state at the step (R103, R176), in the 19 bytes of Table 11-6; of
byte 14 only bit 0 is given (log 7). -/
def Obligations.StatusReportsThePort : Prop :=
  (∀ (s : State) (p : Port) (tag : Byte), s.device = .ready →
    exec (.status p tag) s = .next (s.placeReply p ⟨.ack, tag, .status (s.port p).state (s.port p).epoch
      (if (s.port p).state = .live then (s.port p).lease else if (s.port p).state = .lapsed then (s.port p).grace else 0)
      (s.port p).queue.length ((s.port p).queue.map (fun c => c.payload.length)).sum (s.headState p)
      (s.port p).events.length (s.port p).lost (s.port p).windowsHeld (s.port p).stripsHeld (s.port p).errors
      s.profileDefaulted s.frameNumber s.timeBase⟩))
  ∧ (∀ st epoch rem n b head recs lost wins strips errs defaulted (frame time : BitVec 16),
      ∃ flags : Byte, flags.getLsbD 0 = defaulted
        ∧ (ReplyBody.status st epoch rem n b head recs lost wins strips errs defaulted frame time).bytes
          = [byte st.code, epoch, byte (rem / 256), byte rem, byte n, byte (b / 256), byte b, byte head.code, byte recs, byte lost,
              byte wins, byte (strips / 256), byte strips, byte errs, flags, byte (frame.toNat / 256), byte frame.toNat,
              byte (time.toNat / 256), byte time.toNat])
  ∧ [PortState.disabled, .detached, .live, .lapsed, .closing].map PortState.code = [0, 1, 2, 3, 4]
  ∧ [HeadState.empty, .waiting, .inFlight, .inProgress, .parked].map HeadState.code = [0, 1, 2, 3, 4]

/-! ## The command engine -/

/-- The admission of a queued command on a LIVE port, in the order of R172: a duplicate of the last admitted command is
acknowledged and not queued (R173); a command that does not fit is refused; any other joins the tail, its tag and check byte are
remembered, and the arbiter may grant it. -/
def Obligations.AdmissionQueuesWhatFits : Prop :=
  ∀ (s : State) (p : Port) (k : CommandKind) (flags tag : Byte) (payload : List Byte),
    s.device = .ready → (s.port p).state = .live → payload.length ≤ 512 →
    let q := s.port p
    let key := (tag, crc8 (frameBytes (byte (kindCode k)) flags tag payload))
    let held := (q.queue.map (fun c => c.payload.length)).sum
    let c : QCmd := ⟨k, tag, flags.getLsbD 0, flags.getLsbD 1, flags.getLsbD 2, payload⟩
    (q.duplicate = some key →
      exec (.commandAdmission p k flags tag payload) s
        = .next (s.placeReply p ⟨.ackDuplicate, tag, .admission q.queue.length held⟩))
    ∧ (q.duplicate ≠ some key → 8 ≤ q.queue.length ∨ 1024 < held + payload.length →
      exec (.commandAdmission p k flags tag payload) s = .next (s.placeReply p ⟨.nak .full, tag, .none⟩))
    ∧ (q.duplicate ≠ some key → q.queue.length < 8 → held + payload.length ≤ 1024 →
      exec (.commandAdmission p k flags tag payload) s
        = .next (((s.setPort p { q with
            queue := q.queue ++ [c], duplicate := some key
            progress := if q.queue = [] then .fresh else q.progress
            stopMark := if q.queue = [] then false else q.stopMark }).placeReply p
          ⟨.ack, tag, .admission (q.queue.length + 1) (held + payload.length)⟩).arbitrate))

/-- ABORT on a LIVE or LAPSED port (R62, R63, R177). What has not started is discarded without a report, the chain outcome becomes
NONE and the duplicate memory is emptied; a started or parked head ends ABORTED with its cells done; a head in flight stays,
stop-marked; and the reply counts what was removed and says whether a command was stopped. -/
def Obligations.AbortStopsThePortsCommands : Prop :=
  ∀ (s : State) (p : Port) (tag : Byte), s.device = .ready → (s.port p).state = .live ∨ (s.port p).state = .lapsed →
    let q := { s.port p with chain := .none, duplicate := none }
    let gone := { q with queue := [], progress := .fresh, stopMark := false, waiter := false }
    let n := (s.port p).queue.length
    (s.headState p = .empty →
      exec (.abort p tag) s = .next ((s.setPort p q).placeReply p ⟨.ack, tag, .abort 0 false⟩))
    ∧ (s.headState p = .waiting →
      exec (.abort p tag) s = .next ((s.setPort p gone).placeReply p ⟨.ack, tag, .abort n false⟩))
    ∧ (s.headState p = .inFlight →
      exec (.abort p tag) s = .next ((s.setPort p { q with queue := (s.port p).queue.take 1, stopMark := true }).placeReply p
        ⟨.ack, tag, .abort (n - 1) true⟩))
    ∧ (∀ c, s.headState p = .inProgress ∨ s.headState p = .parked → (s.port p).queue.head? = some c →
      exec (.abort p tag) s = .next (((s.setPort p gone).post p
          (.failed (reportOf c .aborted .none (s.port p).progress.cellsDone)) none).placeReply p
        ⟨.ack, tag, .abort (n - 1) true⟩))

/-- The chain check of a command's first slice ends it SKIPPED, whatever its kind and operands, with no other effect (R53). A slice row
of a port changes nothing while the port has no slice in flight, or when its head is of another kind (the model's choice, log 1). -/
def Obligations.ChainSkipsAndStrayRowsDoNoWork : Prop :=
  (∀ (s : State) (p : Port) (k : CommandKind) (c : QCmd), HeadInFlight s p c → c.kind = k → ChainSkips s p c →
      (s.port p).stopMark = false → (s.port p).state ≠ .closing → s.waitingRemoval = none →
      exec (sliceOf k p) s = .next (s.concludes p c .skipped .none 0))
  ∧ (∀ (s : State) (p : Port) (k : CommandKind),
      s.slice ≠ some p ∨ (∀ c, (s.port p).queue.head? = some c → c.kind ≠ k) → exec (sliceOf k p) s = .next s)

/-- A slice whose head an ABORT has marked ends its command ABORTED, whatever its kind and whatever the slice has done, and leaves the
chain outcome as it was (R56, R63). It is held against the same slice without the mark. Where that ends the command, the marked one
leaves the same effects and the same cells done, and the result part where the status would have been OK; where work would remain or
the head would park, the effects stay, the cells of that slice are included, and there is no result part and no waiter (R63, R64). A
slice of a CLOSING port ends with the port's queue discarded, no record for the port, no request left behind and the chain outcome
unchanged, whatever the command (R61). -/
def Obligations.StoppedSlicesEndAbortedOrSilently : Prop :=
  (∀ (s : State) (p : Port) (k : CommandKind) (c : QCmd), HeadInFlight s p c → c.kind = k → (s.port p).stopMark = true →
      (s.port p).state ≠ .closing → s.waitingRemoval = none →
      let row := exec (sliceOf k p) (s.setPort p { s.port p with stopMark := false })
      ∃ (u : State) (res : ResultPart) (cells : Nat), exec (sliceOf k p) s = .next (u.concludes p c .aborted res cells)
        ∧ (u.port p).queue = (s.port p).queue ∧ (u.port p).chain = (s.port p).chain ∧ (u.port p).state = (s.port p).state
        ∧ (u.port p).progress = (s.port p).progress ∧ (u.port p).waiter = (s.port p).waiter ∧ SamePanel s u
        ∧ ((∃ full st, row = .next (u.concludes p c st full cells) ∧ res = if st = .ok then full else .none)
          ∨ (∃ pr : Progress, row = .next (State.arbitrate (State.setPort { u with slice := none } p { u.port p with progress := pr }))
              ∧ pr.started = true ∧ cells = pr.cellsDone ∧ res = .none)
          ∨ (k = .frameMark ∧ cells = 0 ∧ res = .none ∧ row = .next (State.arbitrate (State.setPort { u with slice := none } p
              { u.port p with progress := { (u.port p).progress with started := true }, waiter := true })))))
  ∧ (∀ (s : State) (p : Port) (k : CommandKind) (c : QCmd), HeadInFlight s p c → c.kind = k → (s.port p).state = .closing → s.waitingRemoval = none →
      ∃ t, exec (sliceOf k p) s = .next t
        ∧ (t.port p).queue = [] ∧ (t.port p).events = (s.port p).events ∧ (t.port p).lost = (s.port p).lost
        ∧ (t.port p).brightness = none ∧ (t.port p).tone = none ∧ (t.port p).waiter = false
        ∧ (t.port p).chain = (s.port p).chain
        ∧ ((t.port p).state = .closing ∨ (t.port p).state = .detached) ∧ t.slice ≠ some p
        ∧ (∀ w ∈ t.windows, p ∉ w.grants) ∧ t.sounding = t.soundingChoice ∧ SamePanel s t)

/-- The end of a slice's command touches its own port and the arbiter only (R45, R55 to R57). The head leaves the queue, the next
one is fresh, the chain outcome follows the status, and one record is posted where R57 gives one: DONE for OK with REPORT or
READ_CELLS, FAILED for every other status. The six slice-based commands of R52, and no others, report cells done. A record's bytes are those
of Table 11-5, and the result part holds the new handle, the window's fields in the order of R39, the cells or the frame number; the codes of the window's fields and the count bytes are read from R174
(log 8, log 9). -/
def Obligations.CommandEndsTouchTheirPortOnly : Prop :=
  (∀ k : CommandKind, sliceBased k = true ↔
    k ∈ [CommandKind.fillRect, .putCells, .writeText, .copyRect, .shiftRect, .readCells]) ∧
  (∀ (s : State) (p : Port) (c : QCmd) (st : Status) (res : ResultPart) (cells : Nat),
    let t := s.concludes p c st res cells
    let report : Report := ⟨c.tag, c.kind, st, c.report, c.urgent, c.chain, if sliceBased c.kind then some cells else none, res⟩
    let popped := { s.port p with
      queue := (s.port p).queue.tail, progress := .fresh, stopMark := false, waiter := false
      chain := if st = .ok then .ok else if st = .aborted then (s.port p).chain else .failed }
    SamePanel s t ∧ SameStore s t ∧ SameInput s t ∧ SameSound s t ∧ SameOthers s t p
      ∧ (st = .ok → c.report = false → c.kind ≠ .readCells → t.port p = popped)
      ∧ (st = .ok → c.report = true ∨ c.kind = .readCells →
          t.port p = (({ s with slice := none }.setPort p popped).post p (.done report) none).port p)
      ∧ (st ≠ .ok → t.port p = (({ s with slice := none }.setPort p popped).post p (.failed report) none).port p))
  ∧ (let word (n : Nat) : List Byte := [byte (n / 256), byte n]
    let yes (b : Bool) : Byte := if b = true then 1 else 0
    (∀ r : Report, ∃ flags : Byte, flags.getLsbD 0 = r.report ∧ flags.getLsbD 1 = r.urgent ∧ flags.getLsbD 2 = r.chain
        ∧ flags.getLsbD 3 = r.cellsDone.isSome
        ∧ r.bytes = [r.tag, byte (kindCode r.kind), byte r.status.code, flags]
          ++ (match r.cellsDone with | some n => word n | none => []) ++ [byte r.result.bytes.length] ++ r.result.bytes)
    ∧ [Status.ok, .noWindow, .notOwner, .notPermitted, .quota, .noSpace, .noSlot, .badGeometry, .badArg, .denied, .sourceLost,
        .aborted, .skipped].map Status.code = [0, 1, 2, 3, 4, 5, 6, 7, 8, 9, 10, 11, 12]
    ∧ ResultPart.none.bytes = [] ∧ (∀ h : Handle, (ResultPart.handle h).bytes = [byte h.slot, h.gen])
    ∧ (∀ n : BitVec 16, (ResultPart.frame n).bytes = word n.toNat)
    ∧ (∀ cs, (ResultPart.cells cs).bytes = [byte cs.length] ++ (cs.map cellBytes).flatten)
    ∧ (∀ v : Cell, v.glyph ≤ 319 → cellAt (cellBytes v) 0 = v ∧ (cellBytes v).length = 3)
    ∧ (∀ w : Window, (ResultPart.window w).bytes
        = [byte w.handle.slot, w.handle.gen, byte w.owner, byte w.band.rank, yes (!w.shown), byte w.view.col, byte w.view.row,
            byte w.view.w, byte w.view.h, byte w.offCol, byte w.offRow, byte w.sc, byte w.sr] ++ word w.stripMap.length
          ++ [byte w.curCol, byte w.curRow] ++ cellBytes w.pen ++ cellBytes w.clear
          ++ [yes w.wrap, yes w.autoscroll, yes w.cursorShown, byte w.touchMode.code, yes w.keyEligible, byte w.lapsePolicy.code,
            byte w.grants.length] ++ w.grants.map (fun g => byte g) ++ [byte w.exposure.code] ++ word w.visible))

/-- The arbiter's choice (R47 to R50): with a slice in flight or no port eligible it grants nothing; else it grants the first
eligible port of the chosen class from that class's pointer on, moves that pointer past it, and counts the URGENT grants made
while a NORMAL port waited, of which there are at most 8 in a row. A port is eligible when it is LIVE and its queue has a head that
is neither in flight nor parked, so a LAPSED port's commands pause (R47, R59); it is in the URGENT class when its head carries URGENT
and the profile permits it (R48). The head states are those of R45, read from the queue, the slice, the waiter and the started flag. -/
def Obligations.ArbiterGrantsByClassAndTurn : Prop :=
  (∀ (s : State) (p : Port),
    let q := s.port p
    (s.headState p = .empty ↔ q.queue = [])
    ∧ (s.headState p = .inFlight ↔ q.queue ≠ [] ∧ s.slice = some p)
    ∧ (s.headState p = .parked ↔ q.queue ≠ [] ∧ s.slice ≠ some p ∧ q.waiter = true)
    ∧ (s.headState p = .inProgress ↔ q.queue ≠ [] ∧ s.slice ≠ some p ∧ q.waiter = false ∧ q.progress.started = true)
    ∧ (s.headState p = .waiting ↔ q.queue ≠ [] ∧ s.slice ≠ some p ∧ q.waiter = false ∧ q.progress.started = false)
    ∧ (s.eligible p = true ↔ q.state = .live ∧ q.queue ≠ [] ∧ s.slice ≠ some p ∧ q.waiter = false)
    ∧ (s.urgentHead p = true ↔ (∃ c, q.queue.head? = some c ∧ c.urgent = true) ∧ (s.portProf p).urgentPermitted = true))
  ∧ ∀ s : State,
    let urgent (p : Port) : Prop := s.eligible p = true ∧ s.urgentHead p = true
    let normal (p : Port) : Prop := s.eligible p = true ∧ s.urgentHead p = false
    let first (start : Port) (ok : Port → Prop) (n : Fin 4) : Prop := ok (start + n) ∧ ∀ m, m < n → ¬ ok (start + m)
    (s.slice ≠ none → s.arbitrate = s)
    ∧ ((∀ p, s.eligible p = false) → s.arbitrate = s)
    ∧ (s.slice = none → ∀ n, first s.urgentNext urgent n → (∀ p, ¬ normal p) →
        s.arbitrate = { s with slice := some (s.urgentNext + n), urgentNext := s.urgentNext + n + 1, urgentRun := 0 })
    ∧ (s.slice = none → ∀ n, first s.urgentNext urgent n → (∃ p, normal p) → s.urgentRun < 8 →
        s.arbitrate = { s with slice := some (s.urgentNext + n), urgentNext := s.urgentNext + n + 1
                               urgentRun := s.urgentRun + 1 })
    ∧ (s.slice = none → ∀ n, first s.normalNext normal n → (∃ p, urgent p) → 8 ≤ s.urgentRun →
        s.arbitrate = { s with slice := some (s.normalNext + n), normalNext := s.normalNext + n + 1, urgentRun := 0 })
    ∧ (s.slice = none → ∀ n, first s.normalNext normal n → (∀ p, ¬ urgent p) →
        s.arbitrate = { s with slice := some (s.normalNext + n), normalNext := s.normalNext + n + 1, urgentRun := 0 })

/-- Handle resolution comes first. It ends every command that names the port's own window: NO_WINDOW for a stale handle, NOT_OWNER for
another port's window; COPY_RECT does so for its target, whose handle stands at byte 6 (R20, R54, R66, R78). That the handle of SET_WINDOW_MODES
stands right after its presence byte is the model's reading (log 30). A command that reads a
window ends NO_WINDOW for a stale handle, and NOT_PERMITTED for another port's window whose grant list lacks the port (R20, R39, R84).
A handle is two bytes, slot then generation, and a byte missing from the payload reads as 00h (R174). -/
def Obligations.HandlesAreResolvedFirst : Prop :=
  (∀ (pl : List Byte) (i : Nat), handleAt pl i = ⟨(pl.getD i 0).toNat, pl.getD (i + 1) 0⟩) ∧
  (∀ (s : State) (p : Port) (k : CommandKind) (c : QCmd),
      k ∈ [CommandKind.destroyWindow, .placeWindow, .showWindow, .hideWindow, .raiseWindow, .lowerWindow, .setBand, .setWindowModes,
        .grantRead, .revokeRead, .setPen, .setCursor, .writeText, .putCells, .fillRect, .copyRect, .shiftRect, .requestFocus] →
      Serves s p k c →
      let h := handleAt c.payload (if k = .copyRect then 6 else if k = .setWindowModes then 1 else 0)
      (s.windowOf h = none → exec (sliceOf k p) s = .next (s.concludes p c .noWindow .none (s.port p).progress.cellsDone))
      ∧ (∀ w, s.windowOf h = some w → w.owner ≠ p →
          exec (sliceOf k p) s = .next (s.concludes p c .notOwner .none (s.port p).progress.cellsDone)))
  ∧ (∀ (s : State) (p : Port) (k : CommandKind) (c : QCmd), k = .queryWindow ∨ k = .readCells → Serves s p k c →
      (s.windowOf (handleAt c.payload 0) = none → exec (sliceOf k p) s = .next (s.concludes p c .noWindow .none 0))
      ∧ (∀ w, s.windowOf (handleAt c.payload 0) = some w → w.owner ≠ p → p ∉ w.grants →
          exec (sliceOf k p) s = .next (s.concludes p c .notPermitted .none 0)))

/-! ## Windows -/

/-- The checks of CREATE_WINDOW, in the order of R12 and R27: each ends the command with its status and changes nothing else. The
operands are the 12 bytes of the payload: band, surface size, view position and size, view offset and clear cell (R27, R174). The
strips of a surface are SR times SC / 16 rounded up (R6, R10). -/
def Obligations.CreateWindowChecksInOrder : Prop :=
  (∀ sc sr : Nat, ∃ perRow, sc ≤ 16 * perRow ∧ 16 * perRow < sc + 16 ∧ stripsOf sc sr = sr * perRow) ∧
  (∀ (pl : List Byte) (o : CreateOperands), createOperands pl = some o ↔
      pl.length = 12 ∧ byteAt pl 0 = o.band.rank ∧ o.sc = byteAt pl 1 ∧ o.sr = byteAt pl 2
        ∧ o.view = ⟨byteAt pl 3, byteAt pl 4, byteAt pl 5, byteAt pl 6⟩ ∧ o.offCol = byteAt pl 7 ∧ o.offRow = byteAt pl 8
        ∧ o.clear = cellAt pl 9 ∧ o.clear.glyph ≤ 319)
  ∧ ∀ (s : State) (p : Port) (c : QCmd), Serves s p .createWindow c →
    let ends (st : Status) : Prop := exec (.createWindow p) s = .next (s.concludes p c st .none 0)
    (createOperands c.payload = none → ends .badArg)
    ∧ ∀ o, createOperands c.payload = some o →
      let prof := s.portProf p
      let n := stripsOf o.sc o.sr
      let shape := 1 ≤ o.sc ∧ o.sc ≤ 128 ∧ 1 ≤ o.sr ∧ o.sr ≤ 64 ∧ 1 ≤ o.view.w ∧ o.view.w ≤ 100 ∧ 1 ≤ o.view.h ∧ o.view.h ≤ 40
        ∧ o.view.col + o.view.w ≤ s.prof.gridCols ∧ o.view.row + o.view.h ≤ s.prof.gridRows
        ∧ o.offCol + o.view.w ≤ o.sc ∧ o.offRow + o.view.h ≤ o.sr
      let free := ∃ k, 1 ≤ k ∧ k ≤ 24 ∧ ∀ w ∈ s.windows, w.handle.slot ≠ k
      let fits := (s.port p).windowsHeld + 1 ≤ prof.windowQuota
      (prof.maxBand.rank < o.band.rank → ends .notPermitted)
      ∧ (o.band.rank ≤ prof.maxBand.rank → ¬ shape → ends .badGeometry)
      ∧ (o.band.rank ≤ prof.maxBand.rank → shape → ¬ fits → ends .quota)
      ∧ (o.band.rank ≤ prof.maxBand.rank → shape → fits → ¬ free → ends .noSlot)
      ∧ (o.band.rank ≤ prof.maxBand.rank → shape → fits → free → prof.stripQuota < (s.port p).stripsHeld + n → ends .quota)
      ∧ (o.band.rank ≤ prof.maxBand.rank → shape → fits → free → (s.port p).stripsHeld + n ≤ prof.stripQuota →
          s.available.length < n → ends .noSpace)

/-- A CREATE_WINDOW that passes its checks (R7, R10, R17, R19, R21, R28): the window takes the lowest free slot with the slot's
generation, the defaults of Table 2-3 and the top of its band; its strips leave the available part and every cell of its surface
reads as the clear cell; every other strip, window and port is as before, but for the exposure recomputation that follows; and the
command ends OK with the new handle. The model's choices: which of the available strips are taken (log 15), and that a CRITICAL window
of a port that has lapsed or closed before this step is counted by the recomputation as in every other case (log 28). -/
def Obligations.CreateWindowMakesTheWindow : Prop :=
  ∀ (s : State) (p : Port) (c : QCmd) (o : CreateOperands) (slot : Nat),
    Serves s p .createWindow c → createOperands c.payload = some o → o.band.rank ≤ (s.portProf p).maxBand.rank →
    geometryOk s.prof o.sc o.sr o.view o.offCol o.offRow = true → (s.port p).windowsHeld + 1 ≤ (s.portProf p).windowQuota →
    (1 ≤ slot ∧ slot ≤ 24 ∧ (∀ w ∈ s.windows, w.handle.slot ≠ slot)
      ∧ ∀ k, 1 ≤ k → k < slot → ∃ w ∈ s.windows, w.handle.slot = k) →
    (s.port p).stripsHeld + stripsOf o.sc o.sr ≤ (s.portProf p).stripQuota → stripsOf o.sc o.sr ≤ s.available.length →
    s.StripsCanonical → s.BandsInOrder →
    let n := stripsOf o.sc o.sr
    let w : Window := ⟨⟨slot, s.generationOf slot⟩, p, o.band, false, o.view, o.sc, o.sr, o.offCol, o.offRow, s.available.take n,
      0, 0, ⟨0, 15, 0, false, false⟩, o.clear, true, true, false, .take, false, .keep, [], .none, 0⟩
    ∃ m : Memory, exec (.createWindow p) s = .next ((State.recomputeExposure (State.setPort
          { s with available := s.available.drop n, memory := m, windows := s.windows.filter (fun x => o.band.rank < x.band.rank)
              ++ [w] ++ s.windows.filter (fun x => !decide (o.band.rank < x.band.rank)) } p
          { s.port p with windowsHeld := (s.port p).windowsHeld + 1, stripsHeld := (s.port p).stripsHeld + n })).concludes
        p c .ok (.handle w.handle) 0)
      ∧ (∀ col row, col < o.sc → row < o.sr → Memory.cell m (s.available.take n) o.sc col row = o.clear)
      ∧ (∀ k, k ∉ s.available.take n → Memory.read m k = Memory.read s.memory k)

/-- A removal, by DESTROY_WINDOW or in a teardown (R11, R13, R19, R29, R42): the window leaves the table and the stack, its handle
is stale, its slot's generation rises by one, its strips retire, its owner's holdings fall, focus and capture let go of it with
FOCUS_LOST before TOUCH_CANCEL, exposure is recomputed, and nothing else changes. The teardown takes the topmost window of its port
and ends with its last. A removal that comes while a slice of a copy from that window is in flight waits, and is taken after that
slice's step: the slice leaves what it would leave without it, and then the removal is taken (R81; that both are one step is the
model's choice, log 31). A TEARDOWN_REMOVAL without a teardown under way changes nothing (the model's choice, log 1). -/
def Obligations.RemovalTakesTheWindowAway : Prop :=
  let gone (s u : State) (w : Window) : Prop := ∃ v : State,
    v = { s with windows := s.windows.filter (fun x => x.handle != w.handle), retiring := s.retiring ++ w.stripMap
                 generations := v.generations, ports := v.ports }
      ∧ v.generationOf w.handle.slot = s.generationOf w.handle.slot + 1
      ∧ (∀ k, k ≠ w.handle.slot → 1 ≤ k → v.generationOf k = s.generationOf k)
      ∧ v.ports = (s.setPort w.owner { s.port w.owner with windowsHeld := (s.port w.owner).windowsHeld - 1
                                                           stripsHeld := (s.port w.owner).stripsHeld - w.stripMap.length }).ports
      ∧ (let eased : State := if s.focus = some w.handle then
            State.post { v with focus := none } w.owner (.focusLost .removed) (some w.handle) else v
        let told : State := match s.capture with
          | .captured h _ => if h = w.handle then
              State.post { eased with capture := .orphan } w.owner (.touchCancel .removed) (some w.handle) else eased
          | _ => eased
        u = told.recomputeExposure)
      ∧ u.windowOf w.handle = none
  let removes (s t : State) (p : Port) : Prop := ∀ w, s.windows.find? (fun x => x.owner == p) = some w →
    1 ≤ w.handle.slot → w.handle.slot ≤ 24 → ∃ u, gone s u w ∧ t = (if u.windows.any (fun x => x.owner == p) then u
      else u.setPort p { u.port p with state := .detached, bank := Vector.replicate 64 blankPattern })
  let copied (s : State) (h : Handle) : Prop := ∃ q c, HeadInFlight s q c ∧ c.kind = .copyRect ∧ handleAt c.payload 0 = h
  (∀ (s : State) (p : Port) (c : QCmd) (w : Window), Serves s p .destroyWindow c → NamesOwn s p c w →
    1 ≤ w.handle.slot → w.handle.slot ≤ 24 →
    (c.payload.length ≠ 2 → exec (.destroyWindow p) s = .next (s.concludes p c .badArg .none 0))
    ∧ (c.payload.length = 2 → ∃ u, exec (.destroyWindow p) s = .next (u.concludes p c .ok .none 0) ∧ gone s u w))
  ∧ (∀ (s : State) (p : Port) (w : Window), (s.port p).state = .closing → s.slice ≠ some p →
      s.windows.find? (fun x => x.owner == p) = some w → 1 ≤ w.handle.slot → w.handle.slot ≤ 24 →
      (copied s w.handle → exec (.teardownRemoval p) s = .next { s with waitingRemoval := some p })
      ∧ (¬ copied s w.handle → ∃ t, exec (.teardownRemoval p) s = .next t ∧ removes s t p))
  ∧ (∀ (s : State) (q : Port) (c : QCmd) (p : Port), HeadInFlight s q c → c.kind = .copyRect → s.waitingRemoval = some p →
      ∃ u t, exec (.copyRect q) { s with waitingRemoval := none } = .next u ∧ exec (.copyRect q) s = .next t
        ∧ ((u.port p).state = .closing → u.slice ≠ some p → removes u t p)
        ∧ ((u.port p).state ≠ .closing ∨ u.slice = some p ∨ (∀ x ∈ u.windows, x.owner ≠ p) → t = u))
  ∧ (∀ (s : State) (p : Port), (s.port p).state ≠ .closing ∨ s.slice = some p → exec (.teardownRemoval p) s = .next s)

/-- PLACE_WINDOW, SHOW_WINDOW and HIDE_WINDOW of the port's own window (R18, R31 to R33): each changes its fields of that window
alone, HIDE_WINDOW withdraws focus held by it, and exposure is recomputed with its events. A window is composed shown, NORMAL or MARK,
as Table 2-4 gives (R22). The recomputation gives each window its count of view cells that no composed-shown window above it covers,
and its class (R24), and posts one EXPOSURE event to the owner of each window whose class has changed, with its handle, new class and
count, in stack order from the top, and changes nothing else (R25). That a window of a DETACHED or DISABLED owner is not composed is
read from the rules (log 25). -/
def Obligations.PlaceShowAndHideChangeTheirFields : Prop :=
  (∀ (s : State) (w : Window),
    let st := (s.port w.owner).state
    (st = .live → s.rendering w = if w.shown = true then some .normal else none)
    ∧ (st = .lapsed ∨ st = .closing →
      (w.band = .critical → s.rendering w = some .mark)
      ∧ (w.band ≠ .critical → w.shown = true → s.rendering w = (match w.lapsePolicy with
          | .keep => some .normal
          | .mark => some .mark
          | .hide => none))
      ∧ (w.band ≠ .critical → w.shown = false → s.rendering w = none))
    ∧ (st = .detached ∨ st = .disabled → s.rendering w = none))
  ∧ (∀ s : State,
    let t := s.recomputeExposure
    let changed := (s.windows.zip t.windows).filterMap (fun e => if e.1.exposure = e.2.exposure then none else some e.2)
    t.windows.length = s.windows.length
    ∧ (∀ above w below, s.windows = above ++ w :: below →
        let n := ((viewCells w.view).filter (fun e => decide (∀ x ∈ above, ¬ Covers s x e.1 e.2))).length
        (s.rendering w = none → t.windows[above.length]? = some { w with exposure := .none, visible := 0 })
        ∧ (s.rendering w ≠ none → t.windows[above.length]? = some { w with
            exposure := if n = w.view.w * w.view.h then .full else if n = 0 then .none else .part, visible := n }))
    ∧ t = changed.foldl (fun u w => u.post w.owner (.exposure w.exposure w.visible) (some w.handle)) { s with windows := t.windows })
  ∧ ∀ (s : State) (p : Port) (c : QCmd) (w : Window), NamesOwn s p c w →
    (Serves s p .placeWindow c → c.payload.length ≠ 8 → exec (.placeWindow p) s = .next (s.concludes p c .badArg .none 0))
    ∧ (Serves s p .placeWindow c → c.payload.length = 8 →
        let v := rectAt c.payload 2
        let oc := byteAt c.payload 6
        let orow := byteAt c.payload 7
        let shape := 1 ≤ v.w ∧ v.w ≤ 100 ∧ 1 ≤ v.h ∧ v.h ≤ 40 ∧ v.col + v.w ≤ s.prof.gridCols ∧ v.row + v.h ≤ s.prof.gridRows
          ∧ oc + v.w ≤ w.sc ∧ orow + v.h ≤ w.sr
        1 ≤ w.sc → w.sc ≤ 128 → 1 ≤ w.sr → w.sr ≤ 64 →
        (¬ shape → exec (.placeWindow p) s = .next (s.concludes p c .badGeometry .none 0))
        ∧ (shape → exec (.placeWindow p) s = .next ((State.recomputeExposure { s with windows := s.windows.map (fun x =>
              if x.handle = w.handle then { x with view := v, offCol := oc, offRow := orow } else x) }).concludes
            p c .ok .none 0)))
    ∧ (Serves s p .showWindow c →
        (c.payload.length ≠ 2 → exec (.showWindow p) s = .next (s.concludes p c .badArg .none 0))
        ∧ (c.payload.length = 2 → exec (.showWindow p) s = .next ((State.recomputeExposure { s with windows := s.windows.map (fun x =>
              if x.handle = w.handle then { x with shown := true } else x) }).concludes p c .ok .none 0)))
    ∧ (Serves s p .hideWindow c →
        (c.payload.length ≠ 2 → exec (.hideWindow p) s = .next (s.concludes p c .badArg .none 0))
        ∧ (c.payload.length = 2 →
          let hidden : State := { s with windows := s.windows.map (fun x => if x.handle = w.handle then { x with shown := false } else x) }
          let eased : State := if s.focus = some w.handle then
            { hidden with focus := none }.post p (.focusLost .hidden) (some w.handle) else hidden
          exec (.hideWindow p) s = .next (eased.recomputeExposure.concludes p c .ok .none 0)))

/-- RAISE_WINDOW, LOWER_WINDOW and SET_BAND (R21, R34, R35): the window comes to stand at the top or the bottom of its band, or at
the top of its new band, and every other window keeps its order; exposure is recomputed, and nothing else changes. -/
def Obligations.StackMovesKeepTheOthersInOrder : Prop :=
  ∀ (s : State) (p : Port) (c : QCmd) (w : Window), NamesOwn s p c w → s.BandsInOrder →
    let others := s.windows.filter (fun x => x.handle != w.handle)
    let moved (ws : List Window) : State := (State.recomputeExposure { s with windows := ws }).concludes p c .ok .none 0
    (Serves s p .raiseWindow c → c.payload.length = 2 →
      exec (.raiseWindow p) s = .next (moved (others.filter (fun x => decide (w.band.rank < x.band.rank)) ++ [w]
        ++ others.filter (fun x => !decide (w.band.rank < x.band.rank)))))
    ∧ (Serves s p .lowerWindow c → c.payload.length = 2 →
      exec (.lowerWindow p) s = .next (moved (others.filter (fun x => decide (w.band.rank ≤ x.band.rank)) ++ [w]
        ++ others.filter (fun x => !decide (w.band.rank ≤ x.band.rank)))))
    ∧ (Serves s p .setBand c → c.payload.length = 3 → ∀ b, bandOf (byteAt c.payload 2) = some b →
      ((s.portProf p).maxBand.rank < b.rank → exec (.setBand p) s = .next (s.concludes p c .notPermitted .none 0))
      ∧ (b.rank ≤ (s.portProf p).maxBand.rank →
        exec (.setBand p) s = .next (moved (others.filter (fun x => decide (b.rank < x.band.rank)) ++ [{ w with band := b }]
          ++ others.filter (fun x => !decide (b.rank < x.band.rank))))))
    ∧ (Serves s p .raiseWindow c → c.payload.length ≠ 2 → exec (.raiseWindow p) s = .next (s.concludes p c .badArg .none 0))
    ∧ (Serves s p .lowerWindow c → c.payload.length ≠ 2 → exec (.lowerWindow p) s = .next (s.concludes p c .badArg .none 0))
    ∧ (Serves s p .setBand c → c.payload.length ≠ 3 ∨ bandOf (byteAt c.payload 2) = none →
        exec (.setBand p) s = .next (s.concludes p c .badArg .none 0))

/-- SET_WINDOW_MODES (R36): an operand without a meaning refuses the command whole; else exactly the present operands' fields change,
focus is withdrawn when key eligible becomes no, and exposure is recomputed only for a changed lapse policy of a silent owner. The
payload begins with a presence byte, with a bit for each operand in the order of R36, and the present operands follow (R174). That the
handle stands between the two (log 30) and that the codes of touch modes and lapse policies are their places in Table 2-1 (log 8) is
the model's reading of R174, and whether bit 7 is refused is left open (log 6). -/
def Obligations.SetWindowModesChangesPresentFields : Prop :=
  (∀ (pl : List Byte) (o : ModeOperands),
    let here (i : Nat) : Bool := (pl.getD 0 0).getLsbD i
    let place (i : Nat) : Nat := 3 + ((List.range i).filter here).length
    let yesNo (i : Nat) (v : Option Bool) : Prop :=
      if here i then (v = some false ∧ byteAt pl (place i) = 0) ∨ (v = some true ∧ byteAt pl (place i) = 1) else v = none
    modeOperands pl = some o ↔
      yesNo 0 o.wrap ∧ yesNo 1 o.autoscroll ∧ yesNo 2 o.cursorShown
        ∧ (if here 3 then o.touchMode ≠ none ∧ o.touchMode = [TouchMode.take, .block, .pass][byteAt pl (place 3)]? else o.touchMode = none)
        ∧ yesNo 4 o.keyEligible
        ∧ (if here 5 then o.lapsePolicy ≠ none ∧ o.lapsePolicy = [LapsePolicy.keep, .hide, .mark][byteAt pl (place 5)]?
          else o.lapsePolicy = none)
        ∧ (if here 6 then o.clear = some (cellAt pl (place 6)) ∧ (cellAt pl (place 6)).glyph ≤ 319 else o.clear = none)
        ∧ pl.length = place 6 + (if here 6 then 3 else 0) ∧ (here 7 = true → Config.presenceBit7Refused = false))
  ∧ ∀ (s : State) (p : Port) (c : QCmd) (w : Window), Serves s p .setWindowModes c →
    s.windowOf (handleAt c.payload 1) = some w → w.owner = p →
    (modeOperands c.payload = none → exec (.setWindowModes p) s = .next (s.concludes p c .badArg .none 0))
    ∧ (∀ o, modeOperands c.payload = some o →
        let f (x : Window) : Window := { x with
          wrap := o.wrap.getD x.wrap, autoscroll := o.autoscroll.getD x.autoscroll, cursorShown := o.cursorShown.getD x.cursorShown
          touchMode := o.touchMode.getD x.touchMode, keyEligible := o.keyEligible.getD x.keyEligible
          lapsePolicy := o.lapsePolicy.getD x.lapsePolicy, clear := o.clear.getD x.clear }
        let set : State := { s with windows := s.windows.map (fun x => if x.handle = w.handle then f x else x) }
        let eased : State := if (f w).keyEligible = false ∧ s.focus = some w.handle then
          { set with focus := none }.post p (.focusLost .modes) (some w.handle) else set
        exec (.setWindowModes p) s = .next ((if (f w).lapsePolicy ≠ w.lapsePolicy ∧ (s.port p).state = .lapsed
          then eased.recomputeExposure else eased).concludes p c .ok .none 0))

/-- GRANT_READ, REVOKE_READ and QUERY_WINDOW (R37 to R39): the checks of a grant in their order, a grant appended once, a grant
taken out wherever it stands, and a query that reads the record and changes nothing. -/
def Obligations.GrantsAndQueries : Prop :=
  ∀ (s : State) (p : Port) (c : QCmd) (w : Window),
    (Serves s p .grantRead c → NamesOwn s p c w →
      (c.payload.length ≠ 3 → exec (.grantRead p) s = .next (s.concludes p c .badArg .none 0))
      ∧ (c.payload.length = 3 → 3 < byteAt c.payload 2 → exec (.grantRead p) s = .next (s.concludes p c .badArg .none 0))
      ∧ (∀ g : Port, c.payload.length = 3 → byteAt c.payload 2 = g.val →
          (g = p ∨ ((s.port g).state ≠ .live ∧ (s.port g).state ≠ .lapsed) →
            exec (.grantRead p) s = .next (s.concludes p c .badArg .none 0))
          ∧ (g ≠ p → (s.port g).state = .live ∨ (s.port g).state = .lapsed → g ∈ w.grants →
            exec (.grantRead p) s = .next (s.concludes p c .ok .none 0))
          ∧ (g ≠ p → (s.port g).state = .live ∨ (s.port g).state = .lapsed → g ∉ w.grants →
            exec (.grantRead p) s = .next (State.concludes { s with windows := s.windows.map (fun x =>
                if x.handle = w.handle then { x with grants := x.grants ++ [g] } else x) } p c .ok .none 0))))
    ∧ (Serves s p .revokeRead c → NamesOwn s p c w →
      (c.payload.length ≠ 3 ∨ 3 < byteAt c.payload 2 → exec (.revokeRead p) s = .next (s.concludes p c .badArg .none 0))
      ∧ (∀ g : Port, c.payload.length = 3 → byteAt c.payload 2 = g.val →
          exec (.revokeRead p) s = .next (State.concludes { s with windows := s.windows.map (fun x =>
              if x.handle = w.handle then { x with grants := x.grants.filter (fun q => q != g) } else x) } p c .ok .none 0)))
    ∧ (Serves s p .queryWindow c → NamesReadable s p c w →
      (c.payload.length ≠ 2 → exec (.queryWindow p) s = .next (s.concludes p c .badArg .none 0))
      ∧ (c.payload.length = 2 → exec (.queryWindow p) s = .next (s.concludes p c .ok (.window w) 0)))

/-! ## Drawing -/

/-- The one-slice drawing commands (R66, R69, R70, R84, R85): SET_PEN and SET_CURSOR change their fields of the window, READ_CELLS
reports the cells of a row as stored and changes nothing, and LOAD_GLYPHS replaces whole patterns of the port's own bank; a value
without a meaning ends each BAD_ARG, and a position outside the surface ends SET_CURSOR and READ_CELLS BAD_GEOMETRY. A cell is the
three bytes of Table 11-4, and a pattern is 16 bytes, one for each pixel row from the top (R4, R174). -/
def Obligations.OneSliceDrawingCommands : Prop :=
  (∀ (pl : List Byte) (i : Nat),
    let v := cellAt pl i
    v.glyph = byteAt pl i + 256 * (byteAt pl (i + 1) % 2) ∧ v.fg.val = byteAt pl (i + 2) / 16 ∧ v.bg.val = byteAt pl (i + 2) % 16
      ∧ v.blink = (byteAt pl (i + 1)).testBit 1 ∧ v.inverse = (byteAt pl (i + 1)).testBit 2)
  ∧ (∀ (pl : List Byte) (i : Nat) (y : Fin 16), (patternAt pl i).get y = pl.getD (i + y.val) 0)
  ∧ ∀ (s : State) (p : Port) (c : QCmd) (w : Window),
    (Serves s p .setPen c → NamesOwn s p c w →
      let pen := cellAt c.payload 2
      (c.payload.length ≠ 5 ∨ 319 < pen.glyph → exec (.setPen p) s = .next (s.concludes p c .badArg .none 0))
      ∧ (c.payload.length = 5 → pen.glyph ≤ 319 →
        exec (.setPen p) s = .next (State.concludes { s with windows := s.windows.map (fun x =>
          if x.handle = w.handle then { x with pen := pen } else x) } p c .ok .none 0)))
    ∧ (Serves s p .setCursor c → NamesOwn s p c w →
      let col := byteAt c.payload 2
      let row := byteAt c.payload 3
      (c.payload.length ≠ 4 → exec (.setCursor p) s = .next (s.concludes p c .badArg .none 0))
      ∧ (c.payload.length = 4 → w.sc ≤ col ∨ w.sr ≤ row →
        exec (.setCursor p) s = .next (s.concludes p c .badGeometry .none 0))
      ∧ (c.payload.length = 4 → col < w.sc → row < w.sr →
        exec (.setCursor p) s = .next (State.concludes { s with windows := s.windows.map (fun x =>
          if x.handle = w.handle then { x with curCol := col, curRow := row } else x) } p c .ok .none 0)))
    ∧ (Serves s p .readCells c → NamesReadable s p c w →
      let col := byteAt c.payload 2
      let row := byteAt c.payload 3
      let n := byteAt c.payload 4
      (c.payload.length ≠ 5 ∨ n = 0 ∨ 16 < n → exec (.readCells p) s = .next (s.concludes p c .badArg .none 0))
      ∧ (c.payload.length = 5 → 1 ≤ n → n ≤ 16 → w.sr ≤ row ∨ w.sc < col + n →
        exec (.readCells p) s = .next (s.concludes p c .badGeometry .none 0))
      ∧ (c.payload.length = 5 → 1 ≤ n → n ≤ 16 → row < w.sr → col + n ≤ w.sc →
        exec (.readCells p) s
          = .next (s.concludes p c .ok (.cells ((List.range n).map (fun i => s.cellOf w (col + i) row))) n)))
    ∧ (Serves s p .loadGlyphs c →
      let first := byteAt c.payload 0
      let n := byteAt c.payload 1
      (63 < first ∨ n = 0 ∨ 16 < n ∨ 64 < first + n ∨ c.payload.length ≠ 2 + 16 * n →
        exec (.loadGlyphs p) s = .next (s.concludes p c .badArg .none 0))
      ∧ (1 ≤ n → n ≤ 16 → first ≤ 63 → first + n ≤ 64 → c.payload.length = 2 + 16 * n →
        ∃ bank, exec (.loadGlyphs p) s = .next ((s.setPort p { s.port p with bank := bank }).concludes p c .ok .none 0)
          ∧ ∀ i : Fin 64, bank.get i =
              if first ≤ i.val ∧ i.val < first + n then patternAt c.payload (2 + 16 * (i.val - first))
              else (s.port p).bank.get i))

/-- One slice of FILL_RECT and of PUT_CELLS, from any point of the command on (R52, R67, R76, R77): with n cells done, exactly the
cells n to n + 63 of the rectangle's forward order take their values, every other cell of every window and every strip of no
window, the retiring ones among them, is as it was (R11), and the command goes on with those cells counted, or ends OK when they were
the last. The payloads are laid out as R174 gives: handle, rectangle, and one cell or the counted list of cells. -/
def Obligations.FillAndPutWriteTheirCells : Prop :=
  (∀ (pl : List Byte) (r : Rect) (v : Cell), fillOperands pl = some (r, v) ↔
      pl.length = 9 ∧ r = ⟨byteAt pl 2, byteAt pl 3, byteAt pl 4, byteAt pl 5⟩ ∧ v = cellAt pl 6 ∧ v.glyph ≤ 319)
  ∧ (∀ (pl : List Byte) (r : Rect) (cs : List Cell), putOperands pl = some (r, cs) ↔
      r = ⟨byteAt pl 2, byteAt pl 3, byteAt pl 4, byteAt pl 5⟩ ∧ byteAt pl 6 = r.w * r.h ∧ pl.length = 7 + 3 * byteAt pl 6
        ∧ cs.length = byteAt pl 6
        ∧ ∀ k, k < byteAt pl 6 → cs[k]? = some (cellAt pl (7 + 3 * k)) ∧ (cellAt pl (7 + 3 * k)).glyph ≤ 319)
  ∧ ∀ (s : State) (p : Port) (c : QCmd) (w : Window), NamesOwn s p c w → s.StripsCanonical → s.TableAgrees →
    let pr := (s.port p).progress
    let fits (r : Rect) : Prop := 1 ≤ r.w ∧ r.w ≤ 128 ∧ 1 ≤ r.h ∧ r.h ≤ 64 ∧ r.col + r.w ≤ w.sc ∧ r.row + r.h ≤ w.sr
    let draws (i : Instr) (r : Rect) (v : Nat → Cell) : Prop :=
      ∃ u : State, u = { s with memory := u.memory }
        ∧ (∀ col row, col < w.sc → row < w.sr →
            let j := (row - r.row) * r.w + (col - r.col)
            u.cellOf w col row = if contains r col row = true ∧ pr.next ≤ j ∧ j < pr.next + 64 then v j else s.cellOf w col row)
        ∧ (∀ x ∈ s.windows, x.handle ≠ w.handle → ∀ col row, col < x.sc → row < x.sr → u.cellOf x col row = s.cellOf x col row)
        ∧ (∀ k, k ∉ w.stripMap → Memory.read u.memory k = Memory.read s.memory k)
        ∧ (r.w * r.h ≤ pr.next + 64 → exec i s = .next (u.concludes p c .ok .none (r.w * r.h)))
        ∧ (pr.next + 64 < r.w * r.h →
            exec i s = .next (State.arbitrate (State.setPort { u with slice := none } p { s.port p with
              progress := { pr with started := true, next := pr.next + 64, cellsDone := pr.next + 64, backward := false } })))
    (Serves s p .fillRect c →
      (fillOperands c.payload = none → exec (.fillRect p) s = .next (s.concludes p c .badArg .none pr.cellsDone))
      ∧ ∀ r v, fillOperands c.payload = some (r, v) →
        (¬ fits r → exec (.fillRect p) s = .next (s.concludes p c .badGeometry .none pr.cellsDone))
        ∧ (fits r → pr.next ≤ r.w * r.h → draws (.fillRect p) r (fun _ => v)))
    ∧ (Serves s p .putCells c →
      (putOperands c.payload = none → exec (.putCells p) s = .next (s.concludes p c .badArg .none pr.cellsDone))
      ∧ ∀ r cs, putOperands c.payload = some (r, cs) →
        (¬ fits r → exec (.putCells p) s = .next (s.concludes p c .badGeometry .none pr.cellsDone))
        ∧ (fits r → pr.next ≤ r.w * r.h → draws (.putCells p) r (fun j => cs.getD j Cell.blank)))

/-- One slice of COPY_RECT, from any point of the command on (R78 to R80): the next 64 cells of the copy's order take the values
that the source cells hold when the slice begins, also where source and target overlap in one window, and every other cell of
every window and every strip of no window is as it was. So a copy within one window writes the source as it stood. -/
def Obligations.CopyRectCopiesTheSourceAsItStood : Prop :=
  ∀ (s : State) (p : Port) (c : QCmd) (w src : Window), Serves s p .copyRect c →
    s.windowOf (handleAt c.payload 6) = some w → w.owner = p →
    s.windowOf (handleAt c.payload 0) = some src → src.owner = p ∨ p ∈ src.grants → c.payload.length = 10 →
    let a := rectAt c.payload 2
    let b : Rect := ⟨byteAt c.payload 8, byteAt c.payload 9, a.w, a.h⟩
    let pr := (s.port p).progress
    let later := src.handle = w.handle ∧ (a.row < b.row ∨ (a.row = b.row ∧ a.col < b.col))
    1 ≤ a.w → a.w ≤ 128 → 1 ≤ a.h → a.h ≤ 64 → a.col + a.w ≤ src.sc → a.row + a.h ≤ src.sr →
    b.col + b.w ≤ w.sc → b.row + b.h ≤ w.sr → s.StripsCanonical → s.TableAgrees →
    pr.next ≤ a.w * a.h → (pr.started = true → (pr.backward = true ↔ later)) →
    ∃ u : State, u = { s with memory := u.memory }
      ∧ (∀ col row, col < w.sc → row < w.sr →
          let j := (row - b.row) * b.w + (col - b.col)
          ∀ unit, unit + 1 = (if pr.started then (if pr.backward then a.w * a.h - j else j + 1)
              else if (copyBackward (src.handle == w.handle) a b) then a.w * a.h - j else j + 1) →
          u.cellOf w col row = if contains b col row = true ∧ pr.next ≤ unit ∧ unit < pr.next + 64 then
              s.cellOf src (a.col + (col - b.col)) (a.row + (row - b.row)) else s.cellOf w col row)
      ∧ (∀ col row, col < w.sc → row < w.sr → contains b col row = false → u.cellOf w col row = s.cellOf w col row)
      ∧ (∀ x ∈ s.windows, x.handle ≠ w.handle → ∀ col row, col < x.sc → row < x.sr → u.cellOf x col row = s.cellOf x col row)
      ∧ (∀ k, k ∉ w.stripMap → Memory.read u.memory k = Memory.read s.memory k)
      ∧ (a.w * a.h ≤ pr.next + 64 → exec (.copyRect p) s = .next (u.concludes p c .ok .none (a.w * a.h)))
      ∧ (pr.next + 64 < a.w * a.h → ∃ back, exec (.copyRect p) s
          = .next (State.arbitrate (State.setPort { u with slice := none } p { s.port p with
              progress := { pr with started := true, next := pr.next + 64, cellsDone := pr.next + 64, backward := back } }))
          ∧ (back = true ↔ later))

/-- The source checks of COPY_RECT. At the first slice (R78): a stale source gives NO_WINDOW, an ungranted one NOT_PERMITTED, a
payload of the wrong length BAD_ARG, a rectangle outside its surface BAD_GEOMETRY. At a later slice, in the order of R54: SOURCE_LOST,
NOT_PERMITTED, SOURCE_LOST. Each ends the command with the cells done of its completed slices and writes nothing (R81). -/
def Obligations.CopyRectChecksItsSourceAtEverySlice : Prop :=
  ∀ (s : State) (p : Port) (c : QCmd) (w : Window), Serves s p .copyRect c →
    s.windowOf (handleAt c.payload 6) = some w → w.owner = p →
    let a := rectAt c.payload 2
    let b : Rect := ⟨byteAt c.payload 8, byteAt c.payload 9, a.w, a.h⟩
    let inside (r : Rect) (x : Window) : Prop :=
      1 ≤ r.w ∧ r.w ≤ 128 ∧ 1 ≤ r.h ∧ r.h ≤ 64 ∧ r.col + r.w ≤ x.sc ∧ r.row + r.h ≤ x.sr
    let pr := (s.port p).progress
    let ends (st : Status) : Prop := exec (.copyRect p) s = .next (s.concludes p c st .none pr.cellsDone)
    (pr.started = false →
      (s.windowOf (handleAt c.payload 0) = none → ends .noWindow)
      ∧ (∀ src, s.windowOf (handleAt c.payload 0) = some src →
        (src.owner ≠ p → p ∉ src.grants → ends .notPermitted)
        ∧ (src.owner = p ∨ p ∈ src.grants → c.payload.length ≠ 10 → ends .badArg)
        ∧ (src.owner = p ∨ p ∈ src.grants → c.payload.length = 10 → ¬ (inside a src ∧ inside b w) → ends .badGeometry)))
    ∧ (pr.started = true →
      (s.windowOf (handleAt c.payload 0) = none → ends .sourceLost)
      ∧ (∀ src, s.windowOf (handleAt c.payload 0) = some src →
        (src.owner ≠ p → p ∉ src.grants → ends .notPermitted)
        ∧ (src.owner = p ∨ p ∈ src.grants → ¬ inside a src → ends .sourceLost)))

/-- One slice of SHIFT_RECT, from any point of the command on (R82, R83): the next 64 cells of its order take the value that the
cell shifted onto them holds when the slice begins, or the clear cell where that cell lies outside the rectangle, and every other
cell of every window and every strip of no window is as it was. The payload holds handle, rectangle, row shift and column shift, the
shifts in two's complement (R174). -/
def Obligations.ShiftRectMovesItsCells : Prop :=
  (∀ (pl : List Byte) (r : Rect) (dr dc : Int), shiftOperands pl = some (r, dr, dc) ↔
      pl.length = 8 ∧ r = ⟨byteAt pl 2, byteAt pl 3, byteAt pl 4, byteAt pl 5⟩ ∧ dr = (pl.getD 6 0).toInt ∧ dc = (pl.getD 7 0).toInt
        ∧ -63 ≤ dr ∧ dr ≤ 63 ∧ -63 ≤ dc ∧ dc ≤ 63 ∧ (dr ≠ 0 ∨ dc ≠ 0))
  ∧ ∀ (s : State) (p : Port) (c : QCmd) (w : Window), Serves s p .shiftRect c → NamesOwn s p c w →
    let pr := (s.port p).progress
    (shiftOperands c.payload = none → exec (.shiftRect p) s = .next (s.concludes p c .badArg .none pr.cellsDone))
    ∧ ∀ r dr dc, shiftOperands c.payload = some (r, dr, dc) →
      let fits := 1 ≤ r.w ∧ r.w ≤ 128 ∧ 1 ≤ r.h ∧ r.h ≤ 64 ∧ r.col + r.w ≤ w.sc ∧ r.row + r.h ≤ w.sr
      let back := 0 < dr ∨ (dr = 0 ∧ 0 < dc)
      (¬ fits → exec (.shiftRect p) s = .next (s.concludes p c .badGeometry .none pr.cellsDone))
      ∧ (fits → s.StripsCanonical → s.TableAgrees → pr.next ≤ r.w * r.h →
        ∃ u : State, u = { s with memory := u.memory }
          ∧ (∀ col row, col < w.sc → row < w.sr →
              let j := (row - r.row) * r.w + (col - r.col)
              ∀ unit, ((back → unit + 1 + j = r.w * r.h) ∧ (¬ back → unit = j)) →
              (contains r col row = true → pr.next ≤ unit → unit < pr.next + 64 →
                (∀ c' r' : Nat, (c' : Int) = col - dc → (r' : Int) = row - dr → contains r c' r' = true →
                    u.cellOf w col row = s.cellOf w c' r')
                ∧ ((¬ ∃ c' r' : Nat, (c' : Int) = col - dc ∧ (r' : Int) = row - dr ∧ contains r c' r' = true) →
                    u.cellOf w col row = w.clear))
              ∧ (contains r col row = false ∨ unit < pr.next ∨ pr.next + 64 ≤ unit → u.cellOf w col row = s.cellOf w col row))
          ∧ (∀ col row, col < w.sc → row < w.sr → contains r col row = false → u.cellOf w col row = s.cellOf w col row)
          ∧ (∀ x ∈ s.windows, x.handle ≠ w.handle → ∀ col row, col < x.sc → row < x.sr →
              u.cellOf x col row = s.cellOf x col row)
          ∧ (∀ k, k ∉ w.stripMap → Memory.read u.memory k = Memory.read s.memory k)
          ∧ (r.w * r.h ≤ pr.next + 64 → exec (.shiftRect p) s = .next (u.concludes p c .ok .none (r.w * r.h)))
          ∧ (pr.next + 64 < r.w * r.h → ∃ b, (b = true ↔ back) ∧ exec (.shiftRect p) s
              = .next (State.arbitrate (State.setPort { u with slice := none } p { s.port p with
                  progress := { pr with started := true, next := pr.next + 64, cellsDone := pr.next + 64, backward := b } }))))

/-- A WRITE_TEXT of glyph codes that stays inside its row, from its first slice (R52, R69, R71, R72): each code is written with the
pen's colours and flags at the next column, the cursor comes to stand after the last, and no other cell changes. Operands without a
meaning end any slice BAD_ARG. Whatever the items, one slice counts at most 64 cells, or the SC cells of a single scroll (R52, R74,
R75), and its cells are added to those of the slices before it; with the cursor in the surface, no strip outside the window's and no
cell of another window changes. The payload holds handle, count and items of two bytes (R174). -/
def Obligations.TextIsWrittenAtTheCursor : Prop :=
  (∀ (pl : List Byte) (items : List TextItem), textOperands pl = some items ↔
      1 ≤ byteAt pl 2 ∧ byteAt pl 2 ≤ 254 ∧ pl.length = 3 + 2 * byteAt pl 2 ∧ items.length = byteAt pl 2
        ∧ ∀ i, i < byteAt pl 2 →
          let v := 256 * byteAt pl (3 + 2 * i) + byteAt pl (4 + 2 * i)
          (v ≤ 319 ∧ items[i]? = some (.glyph v)) ∨ (v = 0xFFFE ∧ items[i]? = some .newLine)
            ∨ (v = 0xFFFF ∧ items[i]? = some .return))
  ∧ ∀ (s : State) (p : Port) (c : QCmd) (w : Window), Serves s p .writeText c → NamesOwn s p c w →
    let pr := (s.port p).progress
    let at_ (u : State) (col row : Nat) : Prop :=
      u = { s with memory := u.memory, windows := s.windows.map (fun x =>
        if x.handle = w.handle then { x with curCol := col, curRow := row } else x) }
    (textOperands c.payload = none → exec (.writeText p) s = .next (s.concludes p c .badArg .none pr.cellsDone))
    ∧ (∀ codes : List Nat, textOperands c.payload = some (codes.map TextItem.glyph) → pr = .fresh → codes.length ≤ 64 →
        w.curCol + codes.length < w.sc → w.curRow < w.sr → s.StripsCanonical → s.TableAgrees →
        ∃ u, at_ u (w.curCol + codes.length) w.curRow
          ∧ exec (.writeText p) s = .next (u.concludes p c .ok .none codes.length)
          ∧ (∀ col row, col < w.sc → row < w.sr → u.cellOf w col row =
              if row = w.curRow ∧ w.curCol ≤ col ∧ col < w.curCol + codes.length then
                { w.pen with glyph := codes.getD (col - w.curCol) 0 } else s.cellOf w col row)
          ∧ (∀ x ∈ s.windows, x.handle ≠ w.handle → ∀ col row, col < x.sc → row < x.sr →
              u.cellOf x col row = s.cellOf x col row)
          ∧ (∀ k, k ∉ w.stripMap → Memory.read u.memory k = Memory.read s.memory k))
    ∧ (∀ items, textOperands c.payload = some items →
        ∃ u col row n, at_ u col row ∧ (n ≤ 64 ∨ n = w.sc)
          ∧ (w.curCol < w.sc → w.curRow < w.sr → s.TableAgrees → s.StripsCanonical →
            (∀ k, k ∉ w.stripMap → Memory.read u.memory k = Memory.read s.memory k)
            ∧ ∀ x ∈ s.windows, x.handle ≠ w.handle → ∀ col' row', col' < x.sc → row' < x.sr →
                u.cellOf x col' row' = s.cellOf x col' row')
          ∧ (exec (.writeText p) s = .next (u.concludes p c .ok .none (pr.cellsDone + n))
            ∨ ∃ pr' : Progress, pr'.started = true ∧ pr'.cellsDone = pr.cellsDone + n
              ∧ exec (.writeText p) s
                = .next (State.arbitrate (State.setPort { u with slice := none } p { s.port p with progress := pr' }))))

/-- WRITE_TEXT unit by unit (R52, R72 to R75). One slice of any items, from any point of the command on, does the units that
TextPoint.unit (Safety.lean) lists, in order, until the next would bring its count above 64, a first unit being done whatever it
counts; the next slice goes on from the point it left; and no other cell and no strip of no window changes. So the discarding state
lasts to the next NEW_LINE or RETURN or the command's end, and only its first discarded glyph writes. Then, in particular: with wrap
on, a glyph in the last column is followed by a line advance; with wrap off the cursor stays, and the first glyph after it writes the
pen as the overflow mark where the pen has a glyph. A line advance goes to the next row, scrolls the surface up by one row where the
last row has autoscroll on, or goes to row 0; one that no longer fits in its slice is owed to the next. That a unit which counts no
cells is not done after one that counts more than 64 is read from the rules (log 27). -/
def Obligations.TextAdvancesItsLines : Prop :=
  ∀ (s : State) (p : Port) (c : QCmd) (w : Window) (items : List TextItem), Serves s p .writeText c → NamesOwn s p c w →
    textOperands c.payload = some items → w.curCol < w.sc → w.curRow < w.sr → s.StripsCanonical → s.TableAgrees →
    let pr := (s.port p).progress
    let at_ (u : State) (col row : Nat) (f : Nat → Nat → Cell) : Prop :=
      u = { s with memory := u.memory, windows := s.windows.map (fun x =>
          if x.handle = w.handle then { x with curCol := col, curRow := row } else x) }
        ∧ (∀ c' r', c' < w.sc → r' < w.sr → u.cellOf w c' r' = f c' r')
        ∧ (∀ x ∈ s.windows, x.handle ≠ w.handle → ∀ c' r', c' < x.sc → r' < x.sr → u.cellOf x c' r' = s.cellOf x c' r')
        ∧ (∀ k, k ∉ w.stripMap → Memory.read u.memory k = Memory.read s.memory k)
    let ends (col row n : Nat) (f : Nat → Nat → Cell) : Prop :=
      ∃ u, at_ u col row f ∧ exec (.writeText p) s = .next (u.concludes p c .ok .none n)
    let stay : Nat → Nat → Cell := fun c' r' => s.cellOf w c' r'
    let written (v : Cell) : Nat → Nat → Cell := fun c' r' => if c' = w.curCol ∧ r' = w.curRow then v else s.cellOf w c' r'
    let scrolled (f : Nat → Nat → Cell) : Nat → Nat → Cell := fun c' r' => if r' + 1 < w.sr then f c' (r' + 1) else w.clear
    let ink (g : Nat) : Cell := { w.pen with glyph := g }
    (∃ (k : Nat) (point : Nat → TextPoint) (cost : Nat → Nat) (u : State),
      let count (i : Nat) : Nat := ((List.range i).map cost).sum
      point 0 = ⟨w.curCol, w.curRow, pr.next, pr.owed, pr.discarding, pr.overflowDone, stay⟩
        ∧ (∀ i, i < k → (point i).unit w items = some (point (i + 1), cost i))
        ∧ (∀ i, 0 < i → i < k → count (i + 1) ≤ 64)
        ∧ at_ u (point k).col (point k).row (point k).cells
        ∧ (((point k).unit w items = none ∧ exec (.writeText p) s = .next (u.concludes p c .ok .none (pr.cellsDone + count k)))
          ∨ (∃ q n, (point k).unit w items = some (q, n) ∧ 0 < k ∧ 64 < count k + n ∧ exec (.writeText p) s
              = .next (State.arbitrate (State.setPort { u with slice := none } p { s.port p with
                  progress := ⟨true, (point k).next, pr.cellsDone + count k, pr.backward, (point k).owed, (point k).discarding,
                    (point k).marked⟩ })))))
    ∧ (pr = .fresh → items = [.return] → ends 0 w.curRow 0 stay)
    ∧ (pr = .fresh → items = [.newLine] →
      (w.curRow + 1 < w.sr → ends 0 (w.curRow + 1) 0 stay)
      ∧ (w.curRow + 1 = w.sr → w.autoscroll = false → ends 0 0 0 stay)
      ∧ (w.curRow + 1 = w.sr → w.autoscroll = true → ends 0 w.curRow w.sc (scrolled stay)))
    ∧ (∀ g, pr = .fresh → items = [.glyph g] → w.curCol + 1 = w.sc →
      (w.wrap = false → ends w.curCol w.curRow 1 (written (ink g)))
      ∧ (w.wrap = true → w.curRow + 1 < w.sr → ends 0 (w.curRow + 1) 1 (written (ink g)))
      ∧ (w.wrap = true → w.curRow + 1 = w.sr → w.autoscroll = false → ends 0 0 1 (written (ink g)))
      ∧ (w.wrap = true → w.curRow + 1 = w.sr → w.autoscroll = true → w.sc ≤ 63 →
          ends 0 w.curRow (1 + w.sc) (scrolled (written (ink g))))
      ∧ (w.wrap = true → w.curRow + 1 = w.sr → w.autoscroll = true → 64 ≤ w.sc →
          ∃ u, at_ u w.curCol w.curRow (written (ink g)) ∧ exec (.writeText p) s
            = .next (State.arbitrate (State.setPort { u with slice := none } p { s.port p with
                progress := { pr with started := true, next := 1, cellsDone := 1, owed := true } }))))
    ∧ (∀ g g', pr = .fresh → items = [.glyph g, .glyph g'] → w.curCol + 1 = w.sc → w.wrap = false →
      ends w.curCol w.curRow 2 (written (if w.pen.glyph = 0 then ink g else w.pen)))
    ∧ (∀ g g' g'', pr = .fresh → items = [.glyph g, .glyph g', .glyph g''] → w.curCol + 1 = w.sc → w.wrap = false →
      ends w.curCol w.curRow 3 (written (if w.pen.glyph = 0 then ink g else w.pen)))
    ∧ (∀ g, pr = .fresh → items = [.glyph g, .return] → w.curCol + 1 = w.sc → w.wrap = false →
      ends 0 w.curRow 1 (written (ink g)))
    ∧ (∀ g, pr = .fresh → items = [.glyph g, .newLine] → w.curCol + 1 = w.sc → w.wrap = false → w.curRow + 1 < w.sr →
      ends 0 (w.curRow + 1) 1 (written (ink g)))
    ∧ (pr.started = true → pr.owed = true → pr.next = items.length → w.curRow + 1 = w.sr → w.autoscroll = true →
      ends 0 w.curRow (pr.cellsDone + w.sc) (scrolled stay))

/-! ## Key focus, tones, brightness and frame marks -/

/-- REQUEST_FOCUS and RELEASE_FOCUS (R154 to R156): a window that holds focus keeps it and nothing is posted; the focus rule moves it,
with FOCUS_LOST MOVED to the old window's owner and then FOCUS_GAINED to the port, or refuses with DENIED; a release withdraws focus
from the port's own window alone. Neither changes anything else. -/
def Obligations.FocusMovesUnderTheFocusRule : Prop :=
  ∀ (s : State) (p : Port) (c : QCmd),
    (∀ w, Serves s p .requestFocus c → NamesOwn s p c w →
      let permitted := w.shown = true ∧ w.keyEligible = true ∧ (s.port p).state = .live
        ∧ ∀ f, s.focusWindow = some f → f.band.rank ≤ w.band.rank ∨ f.owner = p
      let told : State := (match s.focusWindow with
        | some f => s.post f.owner (.focusLost .moved) (some f.handle)
        | none => s)
      (c.payload.length ≠ 2 → exec (.requestFocus p) s = .next (s.concludes p c .badArg .none 0))
      ∧ (c.payload.length = 2 → s.focus = some w.handle → exec (.requestFocus p) s = .next (s.concludes p c .ok .none 0))
      ∧ (c.payload.length = 2 → s.focus ≠ some w.handle → ¬ permitted →
          exec (.requestFocus p) s = .next (s.concludes p c .denied .none 0))
      ∧ (c.payload.length = 2 → s.focus ≠ some w.handle → permitted →
          exec (.requestFocus p) s
            = .next ((State.post { told with focus := some w.handle } p .focusGained (some w.handle)).concludes p c .ok .none 0)))
    ∧ (Serves s p .releaseFocus c →
      (c.payload.length ≠ 0 → exec (.releaseFocus p) s = .next (s.concludes p c .badArg .none 0))
      ∧ (∀ w, c.payload.length = 0 → s.focusWindow = some w → w.owner = p →
          exec (.releaseFocus p) s
            = .next ((State.post { s with focus := none } p (.focusLost .released) (some w.handle)).concludes p c .ok .none 0))
      ∧ (c.payload.length = 0 → (∀ w, s.focusWindow = some w → w.owner ≠ p) →
          exec (.releaseFocus p) s = .next (s.concludes p c .ok .none 0)))

/-- SET_BRIGHTNESS sets the port's request to a level of 0 to 100 or clears it, and refuses any other value (R98, R174). FRAME_MARK
registers the port's waiter and parks the head, posting nothing yet (R58). -/
def Obligations.BrightnessAndFrameMarksAreAskedFor : Prop :=
  ∀ (s : State) (p : Port) (c : QCmd),
    (Serves s p .setBrightness c →
      let level := byteAt c.payload 0
      let sets (b : Option Nat) : Prop :=
        exec (.setBrightness p) s = .next ((s.setPort p { s.port p with brightness := b }).concludes p c .ok .none 0)
      (c.payload.length = 1 → level ≤ 100 → sets (some level))
      ∧ (c.payload.length = 1 → level = 255 → sets none)
      ∧ (c.payload.length ≠ 1 ∨ (100 < level ∧ level < 255) →
          exec (.setBrightness p) s = .next (s.concludes p c .badArg .none 0)))
    ∧ (Serves s p .frameMark c →
      (c.payload.length ≠ 0 → exec (.frameMark p) s = .next (s.concludes p c .badArg .none 0))
      ∧ (c.payload.length = 0 → exec (.frameMark p) s
          = .next (State.arbitrate (State.setPort { s with slice := none } p { s.port p with
              progress := { (s.port p).progress with started := true }, waiter := true }))))

/-- TONE_START and TONE_STOP (R158 to R161, R165). A start checks its operands and its band, ends an active request of the port as
REPLACED, and starts the new one with age 0 and the next start sequence number, unless its port has lapsed and it is a BASE request,
which ends LAPSED at once. Its payload is pattern, pitch, band, duration, tag and end report, 7 bytes (R174); that the codes of
patterns and pitches are their places in Table 10-1 is the model's reading (log 8). A stop ends the port's request as STOPPED. Each
end posts TONE_ENDED where the request asked for it, and the sounding choice is made again; nothing else changes. -/
def Obligations.ToneCommandsStartAndStopRequests : Prop :=
  (∀ (pl : List Byte) (o : ToneOperands), toneOperands pl = some o ↔
      pl.length = 7 ∧ [TonePattern.steady, .pulsed, .chirp][byteAt pl 0]? = some o.pattern
        ∧ [Pitch.low, .high][byteAt pl 1]? = some o.pitch ∧ byteAt pl 2 = o.band.rank
        ∧ o.duration = 256 * byteAt pl 3 + byteAt pl 4 ∧ o.duration ≤ 600 ∧ o.tag = pl.getD 5 0
        ∧ byteAt pl 6 = if o.endReport = true then 1 else 0)
  ∧ ∀ (s : State) (p : Port) (c : QCmd),
    let ended (reason : ToneReason) : State := match (s.port p).tone with
      | some t => if t.endReport = true then s.post p (.toneEnded t.tag reason) none else s
      | none => s
    let chosen (u : State) (n : Nat) : Prop :=
      u = { s with ports := u.ports, toneSeq := n, sounding := u.soundingChoice, sounder := u.drivenPitch u.soundingChoice }
        ∧ SameOthers s u p
    (Serves s p .toneStart c →
      (toneOperands c.payload = none → exec (.toneStart p) s = .next (s.concludes p c .badArg .none 0))
      ∧ ∀ o, toneOperands c.payload = some o →
        let lost := (s.port p).state = .lapsed ∧ o.band = .base
        let told : State := if lost ∧ o.endReport = true then (ended .replaced).post p (.toneEnded o.tag .lapsed) none
          else ended .replaced
        ((s.portProf p).maxBand.rank < o.band.rank → exec (.toneStart p) s = .next (s.concludes p c .notPermitted .none 0))
        ∧ (o.band.rank ≤ (s.portProf p).maxBand.rank →
          ∃ u, exec (.toneStart p) s = .next (u.concludes p c .ok .none 0) ∧ chosen u (s.toneSeq + 1)
            ∧ (¬ lost → u.port p = { told.port p with
                tone := some ⟨o.pattern, o.pitch, o.band, o.duration, o.tag, o.endReport, s.toneSeq, 0⟩ })
            ∧ (lost → u.port p = { told.port p with tone := none })))
    ∧ (Serves s p .toneStop c →
      (c.payload.length ≠ 0 → exec (.toneStop p) s = .next (s.concludes p c .badArg .none 0))
      ∧ (c.payload.length = 0 → (s.port p).tone = none → exec (.toneStop p) s = .next (s.concludes p c .ok .none 0))
      ∧ (c.payload.length = 0 → (s.port p).tone ≠ none →
          ∃ u, exec (.toneStop p) s = .next (u.concludes p c .ok .none 0) ∧ chosen u s.toneSeq
            ∧ u.port p = { (ended .stopped).port p with tone := none }))

/-- TONE_EXPIRY ends a request whose age has reached its end time, 40 ms for CHIRP and its duration in steps of 100 ms for the others,
as ELAPSED (R162); one that is not due, or never is, goes on (that a row not due changes nothing is the model's choice, log 1).
TONE_PHASE_CHANGE drives the tone pair by the sounding request's own phase (R159): on throughout a STEADY request, on for 200 ms and
off for 200 ms in a PULSED one, on for 40 ms in a CHIRP. Both lines of the pair are low while it is silent; driven, they are in
antiphase, at 2.4 kHz for LOW and 3.2 kHz for HIGH (R158, R184). -/
def Obligations.TonesRunOnTheirOwnTime : Prop :=
  (∀ (s : State) (p : Port),
    ((s.port p).tone = none → exec (.toneExpiry p) s = .next s)
    ∧ ∀ t, (s.port p).tone = some t →
      let due := (t.pattern = .chirp ∧ 40 ≤ t.age) ∨ (t.pattern ≠ .chirp ∧ t.duration ≠ 0 ∧ 100 * t.duration ≤ t.age)
      let told : State := if t.endReport = true then s.post p (.toneEnded t.tag .elapsed) none else s
      (¬ due → exec (.toneExpiry p) s = .next s)
      ∧ (due → ∃ u, exec (.toneExpiry p) s = .next u
          ∧ u = { s with ports := u.ports, sounding := u.soundingChoice, sounder := u.drivenPitch u.soundingChoice }
          ∧ SameOthers s u p ∧ u.port p = { told.port p with tone := none }))
  ∧ (∀ s : State,
    (s.sounding = none → exec .tonePhaseChange s = .next { s with sounder := none })
    ∧ ∀ p t, s.sounding = some p → (s.port p).tone = some t →
      let on := t.pattern = .steady ∨ (t.pattern = .pulsed ∧ t.age % 400 < 200) ∨ (t.pattern = .chirp ∧ t.age < 40)
      (on → exec .tonePhaseChange s = .next { s with sounder := some t.pitch })
      ∧ (¬ on → exec .tonePhaseChange s = .next { s with sounder := none }))
  ∧ (∀ (s : State) (wave : Bool),
    (s.sounder = none → s.tonePair.levels wave = (false, false) ∧ s.tonePair.hertz = none)
    ∧ ∀ pitch, s.sounder = some pitch → s.tonePair.levels wave = (wave, !wave)
      ∧ s.tonePair.hertz = some (match pitch with | .low => 2400 | .high => 3200))

/-- The sounding choice (R159): none with no active request; else the port whose request has the highest band and, among requests of
that band, the highest start sequence number. -/
def Obligations.TheHighestLatestRequestSounds : Prop :=
  ∀ s : State, s.SoundAgrees →
    (s.sounding = none ↔ ∀ p, (s.port p).tone = none)
    ∧ ∀ p, s.sounding = some p ↔ ∃ t, (s.port p).tone = some t
        ∧ ∀ q u, q ≠ p → (s.port q).tone = some u → u.band.rank < t.band.rank ∨ (u.band = t.band ∧ u.seq < t.seq)

/-! ## The compositor -/

/-- FRAME_START (R11, R58, R90, R91, R96, R99): the frame number and blink count advance, the composition list is latched as it
stands, retiring strips become available, the brightness is the highest level that a LIVE port asks for, or the profile's default,
raised to the critical floor while the list holds a CRITICAL window, every frame-mark waiter's command ends OK with the new frame
number, and the arbiter may serve the ports whose heads have changed. While the device is not READY there is no frame start (R89). -/
def Obligations.FrameStartLatchesTheComposition : Prop :=
  (∀ s : State, s.device ≠ .ready → exec .frameStart s = .next s)
  ∧ ∀ s : State, s.device = .ready →
    (∀ p, (s.port p).waiter = true → (s.port p).queue.head?.map (fun c => c.kind) = some .frameMark) →
    let asks (b : Nat) : Prop := ∃ p, (s.port p).state = .live ∧ (s.port p).brightness = some b
    let critical : Prop := ∃ w ∈ s.windows, s.rendering w ≠ none ∧ w.band = .critical
    ∃ u : State, exec .frameStart s = .next u.arbitrate
      ∧ u.frameNumber = s.frameNumber + 1 ∧ u.blinkCount = (s.blinkCount + 1) % 60 ∧ u.scanRow = 0
      ∧ u.latched = some ⟨s.windows.filterMap (fun w => (s.rendering w).map (fun r =>
            ⟨w.handle, w.owner, w.band, w.view, w.offCol, w.offRow, r, w.sc, w.stripMap⟩)),
          s.focusWindow.map (fun w => ⟨w.handle, w.curCol, w.curRow, w.cursorShown, w.pen.fg⟩)⟩
      ∧ u.available = s.available ++ s.retiring ∧ u.retiring = [] ∧ u.waitingRemoval = s.waitingRemoval
      ∧ (∀ b, asks b → (∀ b', asks b' → b' ≤ b) →
          (critical → u.brightness = max b s.prof.criticalFloor) ∧ (¬ critical → u.brightness = b))
      ∧ ((∀ b, ¬ asks b) → (critical → u.brightness = max s.prof.defaultBrightness s.prof.criticalFloor)
          ∧ (¬ critical → u.brightness = s.prof.defaultBrightness))
      ∧ (∀ p, (s.port p).waiter = false → u.port p = s.port p)
      ∧ (∀ p c, (s.port p).waiter = true → (s.port p).queue.head? = some c →
          let popped := s.setPort p { s.port p with
            queue := (s.port p).queue.tail, progress := .fresh, stopMark := false, waiter := false, chain := .ok }
          (c.report = true → u.port p = (popped.post p (.done
              ⟨c.tag, .frameMark, .ok, true, c.urgent, c.chain, none, .frame (s.frameNumber + 1)⟩) none).port p)
          ∧ (c.report = false → u.port p = popped.port p))
      ∧ u.windows = s.windows ∧ u.generations = s.generations ∧ u.memory = s.memory ∧ SameInput s u ∧ SameSound s u
      ∧ SameArbiter s u ∧ u.device = s.device ∧ u.timeBase = s.timeBase ∧ u.profile = s.profile
      ∧ u.profileDefaulted = s.profileDefaulted ∧ u.framePhase = s.framePhase ∧ u.rowBuffer = s.rowBuffer
      ∧ u.pixelRows = s.pixelRows ∧ u.sampler = s.sampler ∧ u.pending = s.pending

/-- SCAN_ROW_FETCH fetches the next screen row of the scan (R23, R92, R94): each cell takes its value from the topmost latched window
that contains it, the lapse cell where that is rendered MARK and the desk cell where there is none, with the pattern its glyph code
selects at this moment (R2, R3, R93): of the built-in ones the blanks, the one-pixel dot, the checker, the full block and the bar
segments are stated (Table 1-2). Which middle pixel the dot is, which of the two checkers it is, and the order of the bar segments are
log 4's. A row that is fetched before READY, before the first frame start or after the last row changes nothing (the model's choice,
log 1 and log 21). -/
def Obligations.ScanFetchesTheVisibleMap : Prop :=
  ∀ s : State,
    (s.latched = none ∨ s.device ≠ .ready ∨ s.prof.gridRows ≤ s.scanRow → exec .scanRowFetch s = .next s)
    ∧ ∀ l, s.latched = some l → s.device = .ready → s.scanRow < s.prof.gridRows →
      ∃ t : State, exec .scanRowFetch s = .next t
        ∧ t = { s with rowBuffer := t.rowBuffer, pixelRows := t.pixelRows, scanRow := s.scanRow + 1 }
        ∧ t.rowBuffer.length = s.prof.gridCols ∧ t.pixelRows.length = 16
        ∧ ∀ col, col < s.prof.gridCols → ∃ f, t.rowBuffer[col]? = some f
          ∧ ((∀ x ∈ l.windows, contains x.view col s.scanRow = false) → f.cell = s.prof.deskCell)
          ∧ (∀ above x below, l.windows = above ++ x :: below → contains x.view col s.scanRow = true →
              (∀ y ∈ above, contains y.view col s.scanRow = false) →
              f.cell = (match x.rendering with
                | .mark => s.prof.lapseCell
                | .normal => Memory.cell s.memory x.stripMap x.sc (x.offCol + (col - x.view.col))
                    (x.offRow + (s.scanRow - x.view.row)))
              ∧ ∀ i : Fin 64, f.cell.glyph = 256 + i.val → f.pattern = (s.port x.owner).bank.get i)
          ∧ (f.cell.glyph = 0 ∨ f.cell.glyph = 32 → f.pattern = Vector.replicate 16 0)
          ∧ (f.cell.glyph = 180 → f.pattern = Vector.replicate 16 0xFF#8)
          ∧ ∀ x y, x < 8 → y < 16 →
            let set := (f.pattern.toList.getD y 0).getLsbD (7 - x) = true
            (f.cell.glyph = 127 → (set ↔ x = (if Config.dotLeft = true then 3 else 4) ∧ y = (if Config.dotUpper = true then 7 else 8)))
            ∧ (f.cell.glyph = 177 → (set ↔ ((x + y) % 2 = 0 ↔ Config.checkerFirst = true)))
            ∧ ∀ i, i < 8 →
              (f.cell.glyph = 181 + i → (set ↔ x < i + 1)) ∧ (f.cell.glyph = 189 + i → (set ↔ 16 ≤ y + 2 * (i + 1)))
              ∧ (f.cell.glyph = 197 + i → (set ↔ 8 ≤ x + (i + 1))) ∧ (f.cell.glyph = 205 + i → (set ↔ y < 2 * (i + 1)))

/-- The pixels that a SCAN_ROW_FETCH draws follow Table 5-1 (R93): ink for set pixels and paper for clear ones, exchanged by inverse,
all paper for a blinking cell in an off frame. Pixel rows 14 and 15 of the cursor's cell are drawn in the pen's foreground (R95). -/
def Obligations.PixelsFollowTheColourTable : Prop :=
  ∀ (s t : State) (l : Latched), s.latched = some l → s.device = .ready → s.scanRow < s.prof.gridRows →
    exec .scanRowFetch s = .next t →
    ∀ col x y (f : FetchedCell), t.rowBuffer[col]? = some f → x < 8 → y < 16 →
      let onFrame := 1 ≤ s.blinkCount ∧ s.blinkCount ≤ 30
      let set := (f.pattern.toList.getD y 0).getLsbD (7 - x) = true
      let cursorAt (g : LatchedFocus) (w : LatchedWindow) : Prop :=
        l.focus = some g ∧ l.windows.find? (fun v => v.handle == g.handle) = some w ∧ w.rendering = .normal
          ∧ g.cursorShown = true ∧ w.offCol ≤ g.curCol ∧ g.curCol < w.offCol + w.view.w ∧ w.offRow ≤ g.curRow
          ∧ g.curRow < w.offRow + w.view.h ∧ col = w.view.col + (g.curCol - w.offCol)
          ∧ s.scanRow = w.view.row + (g.curRow - w.offRow)
          ∧ (l.windows.find? (fun v => contains v.view col s.scanRow)).map (fun v => v.handle) = some g.handle ∧ onFrame
      let pixel := (t.pixelRows.getD y [])[8 * col + x]?
      (∀ g w, cursorAt g w → 14 ≤ y → pixel = some (s.prof.palette.get g.fg))
      ∧ ((∀ g w, ¬ cursorAt g w) ∨ y < 14 →
        (f.cell.blink = true → ¬ onFrame →
          pixel = some (s.prof.palette.get (if f.cell.inverse then f.cell.fg else f.cell.bg)))
        ∧ (f.cell.blink = false ∨ onFrame →
          (set → pixel = some (s.prof.palette.get (if f.cell.inverse then f.cell.bg else f.cell.fg)))
          ∧ (¬ set → pixel = some (s.prof.palette.get (if f.cell.inverse then f.cell.fg else f.cell.bg)))))

/-! ## Touch -/

/-- A TOUCH_SAMPLE by contact state (R134 to R138), with the contact position mapped by the calibration and clamped to the screen
(R135): runs are counted, the second contact in a row is a press, a contact that has travelled by the move threshold is a move, and
the third sample without contact in a row is a release. With touch disabled, or before READY, no sample is taken. -/
def Obligations.TouchSamplesMakeTheirReports : Prop :=
  (∀ (prof : Profile) (x y : BitVec 12), 1 ≤ prof.gridCols → 1 ≤ prof.gridRows →
    let axis (raw : BitVec 12) (offset : Int) (gain size n : Nat) : Prop :=
      let v := ((raw.toNat : Int) - offset) * gain * size / 4194304
      n < size ∧ (v < 0 → n = 0) ∧ (0 ≤ v → v < size → (n : Int) = v) ∧ ((size : Int) ≤ v → n + 1 = size)
    axis x prof.offsetX prof.gainX (8 * prof.gridCols) (mapTouch prof x y).x
      ∧ axis y prof.offsetY prof.gainY (16 * prof.gridRows) (mapTouch prof x y).y)
  ∧ ∀ (s : State) (x y : BitVec 12),
    let q := mapTouch s.prof x y
    let m := s.sampler
    let far (r : Pixel) : Prop :=
      let d := (s.prof.moveThreshold : Int)
      d ≤ (q.x : Int) - r.x ∨ d ≤ (r.x : Int) - q.x ∨ d ≤ (q.y : Int) - r.y ∨ d ≤ (r.y : Int) - q.y
    (∀ reading, s.device ≠ .ready ∨ s.prof.touchEnabled = false → exec (.touchSample reading) s = .next s)
    ∧ (s.device = .ready → s.prof.touchEnabled = true →
      (m.down = false → exec (.touchSample none) s = .next { s with sampler := { m with run := 0 } })
      ∧ (m.down = false → m.run = 0 →
          exec (.touchSample (some (x, y))) s = .next { s with sampler := { m with run := 1, lastContact := some q } })
      ∧ (m.down = false → m.run = 1 →
          exec (.touchSample (some (x, y))) s = .next (State.routePress { s with sampler := ⟨true, 0, some q, some q⟩ } q))
      ∧ (∀ r, m.down = true → m.lastReported = some r → ¬ far r →
          exec (.touchSample (some (x, y))) s = .next { s with sampler := ⟨true, 0, some q, some r⟩ })
      ∧ (∀ r, m.down = true → m.lastReported = some r → far r →
          let moved : State := { s with sampler := ⟨true, 0, some q, some q⟩ }
          (∀ h o, s.capture = .captured h o →
            exec (.touchSample (some (x, y))) s = .next (moved.post o (.touchMove q) (some h)))
          ∧ ((∀ h o, s.capture ≠ .captured h o) → exec (.touchSample (some (x, y))) s = .next moved))
      ∧ (m.down = true → m.run < 2 → exec (.touchSample none) s = .next { s with sampler := { m with run := m.run + 1 } })
      ∧ (m.down = true → m.run = 2 → exec (.touchSample none) s = exec .releaseReport s))

/-- PRESS_REPORT and RELEASE_REPORT (R136, R138, R140 to R143). A press goes through the latched windows that contain its cell from
the top, past those whose touch mode is PASS; the first other one takes the capture if it is still in the table, takes touch and its
owner is LIVE, with TOUCH_PRESS posted and key focus moved where the focus rule permits; else the press is an orphan. A release ends
the gesture with TOUCH_RELEASE at the last contact position. -/
def Obligations.PressesAndReleasesAreRouted : Prop :=
  ∀ (s : State) (x y : BitVec 12), s.device = .ready → s.prof.touchEnabled = true →
    let q := mapTouch s.prof x y
    let hits := match s.latched with
      | some l => l.windows.filter (fun v => contains v.view (q.x / 8) (q.y / 16))
      | none => []
    let claims (w : Window) : Prop := ∃ above v below, hits = above ++ v :: below
      ∧ (∀ a ∈ above, ∃ x, s.windowOf a.handle = some x ∧ x.touchMode = .pass)
      ∧ s.windowOf v.handle = some w ∧ w.touchMode = .take ∧ (s.port w.owner).state = .live
    let pressed : State := { s with sampler := ⟨true, 0, some q, some q⟩ }
    (s.sampler.down = false → s.sampler.run = 1 →
      (∀ w, claims w →
        let told := State.post { pressed with capture := .captured w.handle w.owner } w.owner (.touchPress q) (some w.handle)
        let eased : State := (match s.focusWindow with
          | some f => told.post f.owner (.focusLost .moved) (some f.handle)
          | none => told)
        let asks := w.keyEligible = true ∧ w.shown = true ∧ s.focus ≠ some w.handle
          ∧ ∀ f, s.focusWindow = some f → f.band.rank ≤ w.band.rank ∨ f.owner = w.owner
        (¬ asks → exec (.pressReport x y) s = .next told)
        ∧ (asks → exec (.pressReport x y) s
            = .next (State.post { eased with focus := some w.handle } w.owner .focusGained (some w.handle))))
      ∧ ((∀ w, ¬ claims w) → exec (.pressReport x y) s = .next { pressed with capture := .orphan }))
    ∧ (∀ r, s.sampler.down = true → s.sampler.run = 2 → s.sampler.lastContact = some r →
      (∀ h o, s.capture = .captured h o → exec .releaseReport s
          = .next (State.post { s with sampler := .reset, capture := .idle } o (.touchRelease r) (some h)))
      ∧ ((∀ h o, s.capture ≠ .captured h o) →
          exec .releaseReport s = .next { s with sampler := .reset, capture := .idle }))

/-! ## Keys -/

/-- A KEY_READING (R147): one equal to the accepted state sets the count to 0, one that differs counts, and the twentieth in a row is
the key's report. Before READY nothing is read. A report row that is not due changes nothing (the model's choice, log 1). -/
def Obligations.KeyReadingsAgreeTwentyTimes : Prop :=
  ∀ (s : State) (k : KeyId) (pressed : Bool),
    let q := s.key k
    (s.device ≠ .ready → exec (.keyReading k pressed) s = .next s)
    ∧ (s.device = .ready → pressed = q.down → exec (.keyReading k pressed) s = .next (s.setKey k { q with agree := 0 }))
    ∧ (s.device = .ready → pressed ≠ q.down → q.agree < 19 →
        exec (.keyReading k pressed) s = .next (s.setKey k { q with agree := q.agree + 1 }))
    ∧ (s.device = .ready → pressed = true → q.down = false → q.agree = 19 →
        exec (.keyReading k pressed) s = exec (.downReport k) s)
    ∧ (s.device = .ready → pressed = false → q.down = true → q.agree = 19 →
        exec (.keyReading k pressed) s = exec (.upReport k) s)
    ∧ (s.device ≠ .ready ∨ q.down = true ∨ q.agree ≠ 19 → exec (.downReport k) s = .next s)
    ∧ (s.device ≠ .ready ∨ q.down = false ∨ q.agree ≠ 19 → exec (.upReport k) s = .next s)
    ∧ (s.device ≠ .ready ∨ q.down = false ∨ q.timer ≠ some 0 → exec (.repeatReport k) s = .next s)

/-- DOWN_REPORT, REPEAT_REPORT and UP_REPORT (R147 to R150, R152, R163, Table 9-1). A down goes to the ports its routing names, and the
key's capture keeps them; a repeat and an up go to the ports of the capture, wherever focus has gone since, and the up ends it. A
SILENCE key's down goes to no port and ends every BASE and ALERT tone request as SILENCED; with none of them active it changes nothing
but the key. -/
def Obligations.KeyReportsFollowTheirCapture : Prop :=
  ∀ (s : State) (k : KeyId), s.device = .ready →
    let q := s.key k
    let timer (ms : Nat) : Option Nat := if s.prof.repeatEnabled.get k = true then some ms else none
    let routed (ports : Port → Prop) (h : Option Handle) : Prop := match s.prof.routing.get k with
      | .focus => (∀ p, ports p ↔ s.focusOwner = some p) ∧ h = s.focusWindow.map (fun w => w.handle)
      | .port n => (∀ p, ports p ↔ p = n ∧ (s.port n).state = .live) ∧ h = none
      | .all => (∀ p, ports p ↔ (s.port p).state = .live) ∧ h = none
      | .silence => (∀ p, ¬ ports p) ∧ h = none
      | .none => (∀ p, ¬ ports p) ∧ h = none
    let told (t : State) (ports : List Port) (body : EventBody) (h : Option Handle) : Prop :=
      ∀ p, (p ∈ ports → t.port p = (s.post p body h).port p) ∧ (p ∉ ports → t.port p = s.port p)
    (q.down = false → q.agree = 19 → ∃ t ports h, exec (.downReport k) s = .next t
      ∧ routed (fun p => p ∈ ports) h ∧ ports.Nodup
      ∧ (∀ k', t.key k' = if k' = k then ⟨true, 0, timer s.prof.repeatDelay, some ⟨ports, h⟩⟩ else s.key k')
      ∧ (s.prof.routing.get k ≠ .silence → told t ports (.keyDown k) h ∧ t = { s with ports := t.ports, keys := t.keys })
      ∧ (s.prof.routing.get k = .silence →
          t = { s with ports := t.ports, keys := t.keys, sounding := t.sounding, sounder := t.sounder }
          ∧ ((∀ p u, (s.port p).tone = some u → u.band = .critical) → t = { s with keys := t.keys })
          ∧ ∀ p, ((s.port p).tone = none → t.port p = s.port p)
            ∧ ∀ u, (s.port p).tone = some u →
              (u.band = .critical → t.port p = s.port p)
              ∧ (u.band ≠ .critical → t.sounding = t.soundingChoice ∧ t.sounder = t.drivenPitch t.soundingChoice
                ∧ t.port p = { (if u.endReport = true then s.post p (.toneEnded u.tag .silenced) none else s).port p with
                    tone := none })))
    ∧ (∀ c, q.down = true → q.timer = some 0 → q.capture = some c → c.ports.Nodup → ∃ t, exec (.repeatReport k) s = .next t
      ∧ told t c.ports (.keyRepeat k) c.handle ∧ t = { s with ports := t.ports, keys := t.keys }
      ∧ ∀ k', t.key k' = if k' = k then { q with timer := timer s.prof.repeatInterval } else s.key k')
    ∧ (∀ c, q.down = true → q.agree = 19 → q.capture = some c → c.ports.Nodup → ∃ t, exec (.upReport k) s = .next t
      ∧ told t c.ports (.keyUp k) c.handle ∧ t = { s with ports := t.ports, keys := t.keys }
      ∧ ∀ k', t.key k' = if k' = k then ⟨false, 0, none, none⟩ else s.key k')

/-! ## Invariants -/

/-- The state after reset meets every invariant below. -/
def Obligations.ResetMeetsEveryInvariant : Prop :=
  State.reset.StripsCanonical ∧ State.reset.TableAgrees ∧ State.reset.BandsInOrder ∧ State.reset.LinksBounded
    ∧ State.reset.EngineAgrees ∧ State.reset.SessionsAgree ∧ State.reset.InputAgrees ∧ State.reset.ExposureAgrees
    ∧ State.reset.GeometryAgrees ∧ State.reset.SoundAgrees

/-- Every step keeps the strip memory in its canonical form and the stack in the order of bands (R21). -/
def Obligations.StepKeepsTheStoreAndStackInOrder : Prop :=
  ∀ s t : State, s.StripsCanonical → s.BandsInOrder → step s = .next t → t.StripsCanonical ∧ t.BandsInOrder

/-- Every step keeps the window table, the slots, the strip pool and the holdings in agreement (R7, R9, R13, R16, R19). -/
def Obligations.StepKeepsTheTableAgreeing : Prop :=
  ∀ s t : State, s.TableAgrees → step s = .next t → t.TableAgrees

/-- Every step keeps the event queues, command queues and counts within their bounds (R44, R122, R127, R169). -/
def Obligations.StepKeepsTheLinksBounded : Prop :=
  ∀ s t : State, s.LinksBounded → step s = .next t → t.LinksBounded

/-- Every step leaves the engine busy while a port is eligible, and heads in flight and parked heads being heads (R45, R47, R49, R58).
A removal that waits, which is the model's own field waitingRemoval, waits for a slice of a copy. That it waits for such a slice alone
is the model's choice (log 31): R81 gives the order for a copy's source, and R51 lets a removal that falls during any other slice be
taken before or after its step. -/
def Obligations.StepKeepsTheEngineBusy : Prop :=
  ∀ s t : State, s.EngineAgrees → step s = .next t → t.EngineAgrees

/-- Every step keeps what a port holds in agreement with its port state (R103, R107, R112, R116, R118). -/
def Obligations.StepKeepsTheSessionsAgreeing : Prop :=
  ∀ s t : State, s.SessionsAgree → step s = .next t → t.SessionsAgree

/-- Every step keeps key focus, the touch capture and the key captures naming what they may (R139, R147, R148, R150, R151, R153). -/
def Obligations.StepKeepsTheInputsAgreeing : Prop :=
  ∀ s t : State, s.InputAgrees → step s = .next t → t.InputAgrees

/-- Every step keeps each window's exposure and visible cells in agreement with the stack and the port states (R24, R25), and the
windows in slots of their own (R16). -/
def Obligations.StepKeepsTheExposureAgreeing : Prop :=
  ∀ s t : State, s.ExposureAgrees → step s = .next t → t.ExposureAgrees

/-- Every step keeps the windows within the geometry rules and each port within its quotas (R13, R18). -/
def Obligations.StepKeepsTheGeometryAgreeing : Prop :=
  ∀ s t : State, s.GeometryAgrees → step s = .next t → t.GeometryAgrees

/-- Every step keeps the sounding request the tone unit's choice (R158, R159). -/
def Obligations.StepKeepsTheSoundAgreeing : Prop :=
  ∀ s t : State, s.SoundAgrees → step s = .next t → t.SoundAgrees

end Statements
end

