-- ==== Sys2Proof/Laws/State.lean ====
section
/-! SUPPORT. Laws/State.lean: what each update of a record leaves alone, one lemma per field per update, all true by rfl, and
reading a port or a key back after it is written. -/

namespace Sys2Proof.Machine

/-! ## Ports and keys -/

@[simp] theorem State.setPort_device (s : State) (p : Port) (r : PortRec) : (s.setPort p r).device = s.device := rfl
@[simp] theorem State.setPort_timeBase (s : State) (p : Port) (r : PortRec) : (s.setPort p r).timeBase = s.timeBase := rfl
@[simp] theorem State.setPort_profile (s : State) (p : Port) (r : PortRec) : (s.setPort p r).profile = s.profile := rfl
@[simp] theorem State.setPort_profileDefaulted (s : State) (p : Port) (r : PortRec) : (s.setPort p r).profileDefaulted = s.profileDefaulted := rfl
@[simp] theorem State.setPort_windows (s : State) (p : Port) (r : PortRec) : (s.setPort p r).windows = s.windows := rfl
@[simp] theorem State.setPort_generations (s : State) (p : Port) (r : PortRec) : (s.setPort p r).generations = s.generations := rfl
@[simp] theorem State.setPort_memory (s : State) (p : Port) (r : PortRec) : (s.setPort p r).memory = s.memory := rfl
@[simp] theorem State.setPort_available (s : State) (p : Port) (r : PortRec) : (s.setPort p r).available = s.available := rfl
@[simp] theorem State.setPort_retiring (s : State) (p : Port) (r : PortRec) : (s.setPort p r).retiring = s.retiring := rfl
@[simp] theorem State.setPort_waitingRemoval (s : State) (p : Port) (r : PortRec) : (s.setPort p r).waitingRemoval = s.waitingRemoval := rfl
@[simp] theorem State.setPort_slice (s : State) (p : Port) (r : PortRec) : (s.setPort p r).slice = s.slice := rfl
@[simp] theorem State.setPort_urgentNext (s : State) (p : Port) (r : PortRec) : (s.setPort p r).urgentNext = s.urgentNext := rfl
@[simp] theorem State.setPort_normalNext (s : State) (p : Port) (r : PortRec) : (s.setPort p r).normalNext = s.normalNext := rfl
@[simp] theorem State.setPort_urgentRun (s : State) (p : Port) (r : PortRec) : (s.setPort p r).urgentRun = s.urgentRun := rfl
@[simp] theorem State.setPort_frameNumber (s : State) (p : Port) (r : PortRec) : (s.setPort p r).frameNumber = s.frameNumber := rfl
@[simp] theorem State.setPort_blinkCount (s : State) (p : Port) (r : PortRec) : (s.setPort p r).blinkCount = s.blinkCount := rfl
@[simp] theorem State.setPort_framePhase (s : State) (p : Port) (r : PortRec) : (s.setPort p r).framePhase = s.framePhase := rfl
@[simp] theorem State.setPort_latched (s : State) (p : Port) (r : PortRec) : (s.setPort p r).latched = s.latched := rfl
@[simp] theorem State.setPort_brightness (s : State) (p : Port) (r : PortRec) : (s.setPort p r).brightness = s.brightness := rfl
@[simp] theorem State.setPort_scanRow (s : State) (p : Port) (r : PortRec) : (s.setPort p r).scanRow = s.scanRow := rfl
@[simp] theorem State.setPort_rowBuffer (s : State) (p : Port) (r : PortRec) : (s.setPort p r).rowBuffer = s.rowBuffer := rfl
@[simp] theorem State.setPort_pixelRows (s : State) (p : Port) (r : PortRec) : (s.setPort p r).pixelRows = s.pixelRows := rfl
@[simp] theorem State.setPort_sampler (s : State) (p : Port) (r : PortRec) : (s.setPort p r).sampler = s.sampler := rfl
@[simp] theorem State.setPort_capture (s : State) (p : Port) (r : PortRec) : (s.setPort p r).capture = s.capture := rfl
@[simp] theorem State.setPort_focus (s : State) (p : Port) (r : PortRec) : (s.setPort p r).focus = s.focus := rfl
@[simp] theorem State.setPort_keys (s : State) (p : Port) (r : PortRec) : (s.setPort p r).keys = s.keys := rfl
@[simp] theorem State.setPort_toneSeq (s : State) (p : Port) (r : PortRec) : (s.setPort p r).toneSeq = s.toneSeq := rfl
@[simp] theorem State.setPort_sounding (s : State) (p : Port) (r : PortRec) : (s.setPort p r).sounding = s.sounding := rfl
@[simp] theorem State.setPort_sounder (s : State) (p : Port) (r : PortRec) : (s.setPort p r).sounder = s.sounder := rfl
@[simp] theorem State.setPort_pending (s : State) (p : Port) (r : PortRec) : (s.setPort p r).pending = s.pending := rfl

@[simp] theorem State.setKey_device (s : State) (k : KeyId) (r : KeyRec) : (s.setKey k r).device = s.device := rfl
@[simp] theorem State.setKey_timeBase (s : State) (k : KeyId) (r : KeyRec) : (s.setKey k r).timeBase = s.timeBase := rfl
@[simp] theorem State.setKey_profile (s : State) (k : KeyId) (r : KeyRec) : (s.setKey k r).profile = s.profile := rfl
@[simp] theorem State.setKey_profileDefaulted (s : State) (k : KeyId) (r : KeyRec) : (s.setKey k r).profileDefaulted = s.profileDefaulted := rfl
@[simp] theorem State.setKey_ports (s : State) (k : KeyId) (r : KeyRec) : (s.setKey k r).ports = s.ports := rfl
@[simp] theorem State.setKey_windows (s : State) (k : KeyId) (r : KeyRec) : (s.setKey k r).windows = s.windows := rfl
@[simp] theorem State.setKey_generations (s : State) (k : KeyId) (r : KeyRec) : (s.setKey k r).generations = s.generations := rfl
@[simp] theorem State.setKey_memory (s : State) (k : KeyId) (r : KeyRec) : (s.setKey k r).memory = s.memory := rfl
@[simp] theorem State.setKey_available (s : State) (k : KeyId) (r : KeyRec) : (s.setKey k r).available = s.available := rfl
@[simp] theorem State.setKey_retiring (s : State) (k : KeyId) (r : KeyRec) : (s.setKey k r).retiring = s.retiring := rfl
@[simp] theorem State.setKey_waitingRemoval (s : State) (k : KeyId) (r : KeyRec) : (s.setKey k r).waitingRemoval = s.waitingRemoval := rfl
@[simp] theorem State.setKey_slice (s : State) (k : KeyId) (r : KeyRec) : (s.setKey k r).slice = s.slice := rfl
@[simp] theorem State.setKey_urgentNext (s : State) (k : KeyId) (r : KeyRec) : (s.setKey k r).urgentNext = s.urgentNext := rfl
@[simp] theorem State.setKey_normalNext (s : State) (k : KeyId) (r : KeyRec) : (s.setKey k r).normalNext = s.normalNext := rfl
@[simp] theorem State.setKey_urgentRun (s : State) (k : KeyId) (r : KeyRec) : (s.setKey k r).urgentRun = s.urgentRun := rfl
@[simp] theorem State.setKey_frameNumber (s : State) (k : KeyId) (r : KeyRec) : (s.setKey k r).frameNumber = s.frameNumber := rfl
@[simp] theorem State.setKey_blinkCount (s : State) (k : KeyId) (r : KeyRec) : (s.setKey k r).blinkCount = s.blinkCount := rfl
@[simp] theorem State.setKey_framePhase (s : State) (k : KeyId) (r : KeyRec) : (s.setKey k r).framePhase = s.framePhase := rfl
@[simp] theorem State.setKey_latched (s : State) (k : KeyId) (r : KeyRec) : (s.setKey k r).latched = s.latched := rfl
@[simp] theorem State.setKey_brightness (s : State) (k : KeyId) (r : KeyRec) : (s.setKey k r).brightness = s.brightness := rfl
@[simp] theorem State.setKey_scanRow (s : State) (k : KeyId) (r : KeyRec) : (s.setKey k r).scanRow = s.scanRow := rfl
@[simp] theorem State.setKey_rowBuffer (s : State) (k : KeyId) (r : KeyRec) : (s.setKey k r).rowBuffer = s.rowBuffer := rfl
@[simp] theorem State.setKey_pixelRows (s : State) (k : KeyId) (r : KeyRec) : (s.setKey k r).pixelRows = s.pixelRows := rfl
@[simp] theorem State.setKey_sampler (s : State) (k : KeyId) (r : KeyRec) : (s.setKey k r).sampler = s.sampler := rfl
@[simp] theorem State.setKey_capture (s : State) (k : KeyId) (r : KeyRec) : (s.setKey k r).capture = s.capture := rfl
@[simp] theorem State.setKey_focus (s : State) (k : KeyId) (r : KeyRec) : (s.setKey k r).focus = s.focus := rfl
@[simp] theorem State.setKey_toneSeq (s : State) (k : KeyId) (r : KeyRec) : (s.setKey k r).toneSeq = s.toneSeq := rfl
@[simp] theorem State.setKey_sounding (s : State) (k : KeyId) (r : KeyRec) : (s.setKey k r).sounding = s.sounding := rfl
@[simp] theorem State.setKey_sounder (s : State) (k : KeyId) (r : KeyRec) : (s.setKey k r).sounder = s.sounder := rfl
@[simp] theorem State.setKey_pending (s : State) (k : KeyId) (r : KeyRec) : (s.setKey k r).pending = s.pending := rfl

@[simp] theorem State.port_setPort_self (s : State) (p : Port) (r : PortRec) : (s.setPort p r).port p = r := by
  simp [State.port, State.setPort, Vector.get_eq_getElem]

@[simp] theorem State.port_setPort_ne (s : State) {p q : Port} (r : PortRec) (h : q ≠ p) : (s.setPort p r).port q = s.port q := by
  have hv : p.val ≠ q.val := fun e => h (Fin.ext e.symm)
  simp [State.port, State.setPort, Vector.get_eq_getElem, hv]

theorem State.port_setPort (s : State) (p q : Port) (r : PortRec) : (s.setPort p r).port q = if q = p then r else s.port q := by
  by_cases h : q = p
  · subst h; simp
  · simp [h]

@[simp] theorem State.key_setKey_self (s : State) (k : KeyId) (r : KeyRec) : (s.setKey k r).key k = r := by
  simp [State.key, State.setKey, Vector.get_eq_getElem]

@[simp] theorem State.key_setKey_ne (s : State) {k j : KeyId} (r : KeyRec) (h : j ≠ k) : (s.setKey k r).key j = s.key j := by
  have hv : k.val ≠ j.val := fun e => h (Fin.ext e.symm)
  simp [State.key, State.setKey, Vector.get_eq_getElem, hv]

@[simp] theorem State.key_setPort (s : State) (p : Port) (r : PortRec) (k : KeyId) : (s.setPort p r).key k = s.key k := rfl
@[simp] theorem State.port_setKey (s : State) (k : KeyId) (r : KeyRec) (p : Port) : (s.setKey k r).port p = s.port p := rfl
@[simp] theorem State.windowOf_setPort (s : State) (p : Port) (r : PortRec) (h : Handle) :
    (s.setPort p r).windowOf h = s.windowOf h := rfl
@[simp] theorem State.prof_setPort (s : State) (p : Port) (r : PortRec) : (s.setPort p r).prof = s.prof := rfl
@[simp] theorem State.portProf_setPort (s : State) (p q : Port) (r : PortRec) : (s.setPort p r).portProf q = s.portProf q := rfl

/-! ## Windows and slots -/

@[simp] theorem State.updateWindow_device (s : State) (h : Handle) (g : Window → Window) : (s.updateWindow h g).device = s.device := rfl
@[simp] theorem State.updateWindow_timeBase (s : State) (h : Handle) (g : Window → Window) : (s.updateWindow h g).timeBase = s.timeBase := rfl
@[simp] theorem State.updateWindow_profile (s : State) (h : Handle) (g : Window → Window) : (s.updateWindow h g).profile = s.profile := rfl
@[simp] theorem State.updateWindow_profileDefaulted (s : State) (h : Handle) (g : Window → Window) : (s.updateWindow h g).profileDefaulted = s.profileDefaulted := rfl
@[simp] theorem State.updateWindow_ports (s : State) (h : Handle) (g : Window → Window) : (s.updateWindow h g).ports = s.ports := rfl
@[simp] theorem State.updateWindow_generations (s : State) (h : Handle) (g : Window → Window) : (s.updateWindow h g).generations = s.generations := rfl
@[simp] theorem State.updateWindow_memory (s : State) (h : Handle) (g : Window → Window) : (s.updateWindow h g).memory = s.memory := rfl
@[simp] theorem State.updateWindow_available (s : State) (h : Handle) (g : Window → Window) : (s.updateWindow h g).available = s.available := rfl
@[simp] theorem State.updateWindow_retiring (s : State) (h : Handle) (g : Window → Window) : (s.updateWindow h g).retiring = s.retiring := rfl
@[simp] theorem State.updateWindow_waitingRemoval (s : State) (h : Handle) (g : Window → Window) : (s.updateWindow h g).waitingRemoval = s.waitingRemoval := rfl
@[simp] theorem State.updateWindow_slice (s : State) (h : Handle) (g : Window → Window) : (s.updateWindow h g).slice = s.slice := rfl
@[simp] theorem State.updateWindow_urgentNext (s : State) (h : Handle) (g : Window → Window) : (s.updateWindow h g).urgentNext = s.urgentNext := rfl
@[simp] theorem State.updateWindow_normalNext (s : State) (h : Handle) (g : Window → Window) : (s.updateWindow h g).normalNext = s.normalNext := rfl
@[simp] theorem State.updateWindow_urgentRun (s : State) (h : Handle) (g : Window → Window) : (s.updateWindow h g).urgentRun = s.urgentRun := rfl
@[simp] theorem State.updateWindow_frameNumber (s : State) (h : Handle) (g : Window → Window) : (s.updateWindow h g).frameNumber = s.frameNumber := rfl
@[simp] theorem State.updateWindow_blinkCount (s : State) (h : Handle) (g : Window → Window) : (s.updateWindow h g).blinkCount = s.blinkCount := rfl
@[simp] theorem State.updateWindow_framePhase (s : State) (h : Handle) (g : Window → Window) : (s.updateWindow h g).framePhase = s.framePhase := rfl
@[simp] theorem State.updateWindow_latched (s : State) (h : Handle) (g : Window → Window) : (s.updateWindow h g).latched = s.latched := rfl
@[simp] theorem State.updateWindow_brightness (s : State) (h : Handle) (g : Window → Window) : (s.updateWindow h g).brightness = s.brightness := rfl
@[simp] theorem State.updateWindow_scanRow (s : State) (h : Handle) (g : Window → Window) : (s.updateWindow h g).scanRow = s.scanRow := rfl
@[simp] theorem State.updateWindow_rowBuffer (s : State) (h : Handle) (g : Window → Window) : (s.updateWindow h g).rowBuffer = s.rowBuffer := rfl
@[simp] theorem State.updateWindow_pixelRows (s : State) (h : Handle) (g : Window → Window) : (s.updateWindow h g).pixelRows = s.pixelRows := rfl
@[simp] theorem State.updateWindow_sampler (s : State) (h : Handle) (g : Window → Window) : (s.updateWindow h g).sampler = s.sampler := rfl
@[simp] theorem State.updateWindow_capture (s : State) (h : Handle) (g : Window → Window) : (s.updateWindow h g).capture = s.capture := rfl
@[simp] theorem State.updateWindow_focus (s : State) (h : Handle) (g : Window → Window) : (s.updateWindow h g).focus = s.focus := rfl
@[simp] theorem State.updateWindow_keys (s : State) (h : Handle) (g : Window → Window) : (s.updateWindow h g).keys = s.keys := rfl
@[simp] theorem State.updateWindow_toneSeq (s : State) (h : Handle) (g : Window → Window) : (s.updateWindow h g).toneSeq = s.toneSeq := rfl
@[simp] theorem State.updateWindow_sounding (s : State) (h : Handle) (g : Window → Window) : (s.updateWindow h g).sounding = s.sounding := rfl
@[simp] theorem State.updateWindow_sounder (s : State) (h : Handle) (g : Window → Window) : (s.updateWindow h g).sounder = s.sounder := rfl
@[simp] theorem State.updateWindow_pending (s : State) (h : Handle) (g : Window → Window) : (s.updateWindow h g).pending = s.pending := rfl

@[simp] theorem State.bumpGeneration_device (s : State) (n : Nat) : (s.bumpGeneration n).device = s.device := rfl
@[simp] theorem State.bumpGeneration_timeBase (s : State) (n : Nat) : (s.bumpGeneration n).timeBase = s.timeBase := rfl
@[simp] theorem State.bumpGeneration_profile (s : State) (n : Nat) : (s.bumpGeneration n).profile = s.profile := rfl
@[simp] theorem State.bumpGeneration_profileDefaulted (s : State) (n : Nat) : (s.bumpGeneration n).profileDefaulted = s.profileDefaulted := rfl
@[simp] theorem State.bumpGeneration_ports (s : State) (n : Nat) : (s.bumpGeneration n).ports = s.ports := rfl
@[simp] theorem State.bumpGeneration_windows (s : State) (n : Nat) : (s.bumpGeneration n).windows = s.windows := rfl
@[simp] theorem State.bumpGeneration_memory (s : State) (n : Nat) : (s.bumpGeneration n).memory = s.memory := rfl
@[simp] theorem State.bumpGeneration_available (s : State) (n : Nat) : (s.bumpGeneration n).available = s.available := rfl
@[simp] theorem State.bumpGeneration_retiring (s : State) (n : Nat) : (s.bumpGeneration n).retiring = s.retiring := rfl
@[simp] theorem State.bumpGeneration_waitingRemoval (s : State) (n : Nat) : (s.bumpGeneration n).waitingRemoval = s.waitingRemoval := rfl
@[simp] theorem State.bumpGeneration_slice (s : State) (n : Nat) : (s.bumpGeneration n).slice = s.slice := rfl
@[simp] theorem State.bumpGeneration_urgentNext (s : State) (n : Nat) : (s.bumpGeneration n).urgentNext = s.urgentNext := rfl
@[simp] theorem State.bumpGeneration_normalNext (s : State) (n : Nat) : (s.bumpGeneration n).normalNext = s.normalNext := rfl
@[simp] theorem State.bumpGeneration_urgentRun (s : State) (n : Nat) : (s.bumpGeneration n).urgentRun = s.urgentRun := rfl
@[simp] theorem State.bumpGeneration_frameNumber (s : State) (n : Nat) : (s.bumpGeneration n).frameNumber = s.frameNumber := rfl
@[simp] theorem State.bumpGeneration_blinkCount (s : State) (n : Nat) : (s.bumpGeneration n).blinkCount = s.blinkCount := rfl
@[simp] theorem State.bumpGeneration_framePhase (s : State) (n : Nat) : (s.bumpGeneration n).framePhase = s.framePhase := rfl
@[simp] theorem State.bumpGeneration_latched (s : State) (n : Nat) : (s.bumpGeneration n).latched = s.latched := rfl
@[simp] theorem State.bumpGeneration_brightness (s : State) (n : Nat) : (s.bumpGeneration n).brightness = s.brightness := rfl
@[simp] theorem State.bumpGeneration_scanRow (s : State) (n : Nat) : (s.bumpGeneration n).scanRow = s.scanRow := rfl
@[simp] theorem State.bumpGeneration_rowBuffer (s : State) (n : Nat) : (s.bumpGeneration n).rowBuffer = s.rowBuffer := rfl
@[simp] theorem State.bumpGeneration_pixelRows (s : State) (n : Nat) : (s.bumpGeneration n).pixelRows = s.pixelRows := rfl
@[simp] theorem State.bumpGeneration_sampler (s : State) (n : Nat) : (s.bumpGeneration n).sampler = s.sampler := rfl
@[simp] theorem State.bumpGeneration_capture (s : State) (n : Nat) : (s.bumpGeneration n).capture = s.capture := rfl
@[simp] theorem State.bumpGeneration_focus (s : State) (n : Nat) : (s.bumpGeneration n).focus = s.focus := rfl
@[simp] theorem State.bumpGeneration_keys (s : State) (n : Nat) : (s.bumpGeneration n).keys = s.keys := rfl
@[simp] theorem State.bumpGeneration_toneSeq (s : State) (n : Nat) : (s.bumpGeneration n).toneSeq = s.toneSeq := rfl
@[simp] theorem State.bumpGeneration_sounding (s : State) (n : Nat) : (s.bumpGeneration n).sounding = s.sounding := rfl
@[simp] theorem State.bumpGeneration_sounder (s : State) (n : Nat) : (s.bumpGeneration n).sounder = s.sounder := rfl
@[simp] theorem State.bumpGeneration_pending (s : State) (n : Nat) : (s.bumpGeneration n).pending = s.pending := rfl

@[simp] theorem State.port_updateWindow (s : State) (h : Handle) (g : Window → Window) (p : Port) : (s.updateWindow h g).port p = s.port p := rfl
@[simp] theorem State.port_bumpGeneration (s : State) (n : Nat) (p : Port) : (s.bumpGeneration n).port p = s.port p := rfl

@[simp] theorem Window.placed_handle (w : Window) (v : Rect) (c r : Nat) : (w.placed v c r).handle = w.handle := rfl
@[simp] theorem Window.placed_owner (w : Window) (v : Rect) (c r : Nat) : (w.placed v c r).owner = w.owner := rfl
@[simp] theorem Window.placed_band (w : Window) (v : Rect) (c r : Nat) : (w.placed v c r).band = w.band := rfl
@[simp] theorem Window.placed_shown (w : Window) (v : Rect) (c r : Nat) : (w.placed v c r).shown = w.shown := rfl
@[simp] theorem Window.placed_sc (w : Window) (v : Rect) (c r : Nat) : (w.placed v c r).sc = w.sc := rfl
@[simp] theorem Window.placed_sr (w : Window) (v : Rect) (c r : Nat) : (w.placed v c r).sr = w.sr := rfl
@[simp] theorem Window.placed_stripMap (w : Window) (v : Rect) (c r : Nat) : (w.placed v c r).stripMap = w.stripMap := rfl
@[simp] theorem Window.placed_curCol (w : Window) (v : Rect) (c r : Nat) : (w.placed v c r).curCol = w.curCol := rfl
@[simp] theorem Window.placed_curRow (w : Window) (v : Rect) (c r : Nat) : (w.placed v c r).curRow = w.curRow := rfl
@[simp] theorem Window.placed_pen (w : Window) (v : Rect) (c r : Nat) : (w.placed v c r).pen = w.pen := rfl
@[simp] theorem Window.placed_clear (w : Window) (v : Rect) (c r : Nat) : (w.placed v c r).clear = w.clear := rfl
@[simp] theorem Window.placed_wrap (w : Window) (v : Rect) (c r : Nat) : (w.placed v c r).wrap = w.wrap := rfl
@[simp] theorem Window.placed_autoscroll (w : Window) (v : Rect) (c r : Nat) : (w.placed v c r).autoscroll = w.autoscroll := rfl
@[simp] theorem Window.placed_cursorShown (w : Window) (v : Rect) (c r : Nat) : (w.placed v c r).cursorShown = w.cursorShown := rfl
@[simp] theorem Window.placed_touchMode (w : Window) (v : Rect) (c r : Nat) : (w.placed v c r).touchMode = w.touchMode := rfl
@[simp] theorem Window.placed_keyEligible (w : Window) (v : Rect) (c r : Nat) : (w.placed v c r).keyEligible = w.keyEligible := rfl
@[simp] theorem Window.placed_lapsePolicy (w : Window) (v : Rect) (c r : Nat) : (w.placed v c r).lapsePolicy = w.lapsePolicy := rfl
@[simp] theorem Window.placed_grants (w : Window) (v : Rect) (c r : Nat) : (w.placed v c r).grants = w.grants := rfl
@[simp] theorem Window.placed_exposure (w : Window) (v : Rect) (c r : Nat) : (w.placed v c r).exposure = w.exposure := rfl
@[simp] theorem Window.placed_visible (w : Window) (v : Rect) (c r : Nat) : (w.placed v c r).visible = w.visible := rfl

@[simp] theorem Window.withModes_handle (w : Window) (m : ModeOperands) : (w.withModes m).handle = w.handle := rfl
@[simp] theorem Window.withModes_owner (w : Window) (m : ModeOperands) : (w.withModes m).owner = w.owner := rfl
@[simp] theorem Window.withModes_band (w : Window) (m : ModeOperands) : (w.withModes m).band = w.band := rfl
@[simp] theorem Window.withModes_shown (w : Window) (m : ModeOperands) : (w.withModes m).shown = w.shown := rfl
@[simp] theorem Window.withModes_view (w : Window) (m : ModeOperands) : (w.withModes m).view = w.view := rfl
@[simp] theorem Window.withModes_sc (w : Window) (m : ModeOperands) : (w.withModes m).sc = w.sc := rfl
@[simp] theorem Window.withModes_sr (w : Window) (m : ModeOperands) : (w.withModes m).sr = w.sr := rfl
@[simp] theorem Window.withModes_offCol (w : Window) (m : ModeOperands) : (w.withModes m).offCol = w.offCol := rfl
@[simp] theorem Window.withModes_offRow (w : Window) (m : ModeOperands) : (w.withModes m).offRow = w.offRow := rfl
@[simp] theorem Window.withModes_stripMap (w : Window) (m : ModeOperands) : (w.withModes m).stripMap = w.stripMap := rfl
@[simp] theorem Window.withModes_curCol (w : Window) (m : ModeOperands) : (w.withModes m).curCol = w.curCol := rfl
@[simp] theorem Window.withModes_curRow (w : Window) (m : ModeOperands) : (w.withModes m).curRow = w.curRow := rfl
@[simp] theorem Window.withModes_pen (w : Window) (m : ModeOperands) : (w.withModes m).pen = w.pen := rfl
@[simp] theorem Window.withModes_grants (w : Window) (m : ModeOperands) : (w.withModes m).grants = w.grants := rfl
@[simp] theorem Window.withModes_exposure (w : Window) (m : ModeOperands) : (w.withModes m).exposure = w.exposure := rfl
@[simp] theorem Window.withModes_visible (w : Window) (m : ModeOperands) : (w.withModes m).visible = w.visible := rfl

@[simp] theorem Window.ungrant_handle (w : Window) (p : Port) : (Window.ungrant p w).handle = w.handle := rfl
@[simp] theorem Window.ungrant_owner (w : Window) (p : Port) : (Window.ungrant p w).owner = w.owner := rfl
@[simp] theorem Window.ungrant_band (w : Window) (p : Port) : (Window.ungrant p w).band = w.band := rfl
@[simp] theorem Window.ungrant_shown (w : Window) (p : Port) : (Window.ungrant p w).shown = w.shown := rfl
@[simp] theorem Window.ungrant_view (w : Window) (p : Port) : (Window.ungrant p w).view = w.view := rfl
@[simp] theorem Window.ungrant_sc (w : Window) (p : Port) : (Window.ungrant p w).sc = w.sc := rfl
@[simp] theorem Window.ungrant_sr (w : Window) (p : Port) : (Window.ungrant p w).sr = w.sr := rfl
@[simp] theorem Window.ungrant_offCol (w : Window) (p : Port) : (Window.ungrant p w).offCol = w.offCol := rfl
@[simp] theorem Window.ungrant_offRow (w : Window) (p : Port) : (Window.ungrant p w).offRow = w.offRow := rfl
@[simp] theorem Window.ungrant_stripMap (w : Window) (p : Port) : (Window.ungrant p w).stripMap = w.stripMap := rfl
@[simp] theorem Window.ungrant_curCol (w : Window) (p : Port) : (Window.ungrant p w).curCol = w.curCol := rfl
@[simp] theorem Window.ungrant_curRow (w : Window) (p : Port) : (Window.ungrant p w).curRow = w.curRow := rfl
@[simp] theorem Window.ungrant_pen (w : Window) (p : Port) : (Window.ungrant p w).pen = w.pen := rfl
@[simp] theorem Window.ungrant_clear (w : Window) (p : Port) : (Window.ungrant p w).clear = w.clear := rfl
@[simp] theorem Window.ungrant_wrap (w : Window) (p : Port) : (Window.ungrant p w).wrap = w.wrap := rfl
@[simp] theorem Window.ungrant_autoscroll (w : Window) (p : Port) : (Window.ungrant p w).autoscroll = w.autoscroll := rfl
@[simp] theorem Window.ungrant_cursorShown (w : Window) (p : Port) : (Window.ungrant p w).cursorShown = w.cursorShown := rfl
@[simp] theorem Window.ungrant_touchMode (w : Window) (p : Port) : (Window.ungrant p w).touchMode = w.touchMode := rfl
@[simp] theorem Window.ungrant_keyEligible (w : Window) (p : Port) : (Window.ungrant p w).keyEligible = w.keyEligible := rfl
@[simp] theorem Window.ungrant_lapsePolicy (w : Window) (p : Port) : (Window.ungrant p w).lapsePolicy = w.lapsePolicy := rfl
@[simp] theorem Window.ungrant_exposure (w : Window) (p : Port) : (Window.ungrant p w).exposure = w.exposure := rfl
@[simp] theorem Window.ungrant_visible (w : Window) (p : Port) : (Window.ungrant p w).visible = w.visible := rfl

/-! ## What the part holds for a port -/

@[simp] theorem PortRec.place_state (q : PortRec) (r : Reply) : (q.place r).state = q.state := rfl
@[simp] theorem PortRec.place_epoch (q : PortRec) (r : Reply) : (q.place r).epoch = q.epoch := rfl
@[simp] theorem PortRec.place_lease (q : PortRec) (r : Reply) : (q.place r).lease = q.lease := rfl
@[simp] theorem PortRec.place_grace (q : PortRec) (r : Reply) : (q.place r).grace = q.grace := rfl
@[simp] theorem PortRec.place_warned (q : PortRec) (r : Reply) : (q.place r).warned = q.warned := rfl
@[simp] theorem PortRec.place_dataOut (q : PortRec) (r : Reply) : (q.place r).dataOut = [] := rfl
@[simp] theorem PortRec.place_errors (q : PortRec) (r : Reply) : (q.place r).errors = q.errors := rfl
@[simp] theorem PortRec.place_duplicate (q : PortRec) (r : Reply) : (q.place r).duplicate = q.duplicate := rfl
@[simp] theorem PortRec.place_queue (q : PortRec) (r : Reply) : (q.place r).queue = q.queue := rfl
@[simp] theorem PortRec.place_progress (q : PortRec) (r : Reply) : (q.place r).progress = q.progress := rfl
@[simp] theorem PortRec.place_stopMark (q : PortRec) (r : Reply) : (q.place r).stopMark = q.stopMark := rfl
@[simp] theorem PortRec.place_chain (q : PortRec) (r : Reply) : (q.place r).chain = q.chain := rfl
@[simp] theorem PortRec.place_lost (q : PortRec) (r : Reply) : (q.place r).lost = q.lost := rfl
@[simp] theorem PortRec.place_windowsHeld (q : PortRec) (r : Reply) : (q.place r).windowsHeld = q.windowsHeld := rfl
@[simp] theorem PortRec.place_stripsHeld (q : PortRec) (r : Reply) : (q.place r).stripsHeld = q.stripsHeld := rfl
@[simp] theorem PortRec.place_bank (q : PortRec) (r : Reply) : (q.place r).bank = q.bank := rfl
@[simp] theorem PortRec.place_brightness (q : PortRec) (r : Reply) : (q.place r).brightness = q.brightness := rfl
@[simp] theorem PortRec.place_waiter (q : PortRec) (r : Reply) : (q.place r).waiter = q.waiter := rfl
@[simp] theorem PortRec.place_tone (q : PortRec) (r : Reply) : (q.place r).tone = q.tone := rfl

@[simp] theorem PortRec.giveUp_state (q : PortRec) (n : Nat) : (q.giveUp n).state = q.state := rfl
@[simp] theorem PortRec.giveUp_epoch (q : PortRec) (n : Nat) : (q.giveUp n).epoch = q.epoch := rfl
@[simp] theorem PortRec.giveUp_lease (q : PortRec) (n : Nat) : (q.giveUp n).lease = q.lease := rfl
@[simp] theorem PortRec.giveUp_grace (q : PortRec) (n : Nat) : (q.giveUp n).grace = q.grace := rfl
@[simp] theorem PortRec.giveUp_warned (q : PortRec) (n : Nat) : (q.giveUp n).warned = q.warned := rfl
@[simp] theorem PortRec.giveUp_reply (q : PortRec) (n : Nat) : (q.giveUp n).reply = q.reply := rfl
@[simp] theorem PortRec.giveUp_transfer (q : PortRec) (n : Nat) : (q.giveUp n).transfer = q.transfer := rfl
@[simp] theorem PortRec.giveUp_dataOut (q : PortRec) (n : Nat) : (q.giveUp n).dataOut = q.dataOut := rfl
@[simp] theorem PortRec.giveUp_errors (q : PortRec) (n : Nat) : (q.giveUp n).errors = q.errors := rfl
@[simp] theorem PortRec.giveUp_duplicate (q : PortRec) (n : Nat) : (q.giveUp n).duplicate = q.duplicate := rfl
@[simp] theorem PortRec.giveUp_queue (q : PortRec) (n : Nat) : (q.giveUp n).queue = q.queue := rfl
@[simp] theorem PortRec.giveUp_progress (q : PortRec) (n : Nat) : (q.giveUp n).progress = q.progress := rfl
@[simp] theorem PortRec.giveUp_stopMark (q : PortRec) (n : Nat) : (q.giveUp n).stopMark = q.stopMark := rfl
@[simp] theorem PortRec.giveUp_chain (q : PortRec) (n : Nat) : (q.giveUp n).chain = q.chain := rfl
@[simp] theorem PortRec.giveUp_events (q : PortRec) (n : Nat) : (q.giveUp n).events = q.events := rfl
@[simp] theorem PortRec.giveUp_lost (q : PortRec) (n : Nat) : (q.giveUp n).lost = q.lost := rfl
@[simp] theorem PortRec.giveUp_bank (q : PortRec) (n : Nat) : (q.giveUp n).bank = q.bank := rfl
@[simp] theorem PortRec.giveUp_brightness (q : PortRec) (n : Nat) : (q.giveUp n).brightness = q.brightness := rfl
@[simp] theorem PortRec.giveUp_waiter (q : PortRec) (n : Nat) : (q.giveUp n).waiter = q.waiter := rfl
@[simp] theorem PortRec.giveUp_tone (q : PortRec) (n : Nat) : (q.giveUp n).tone = q.tone := rfl

@[simp] theorem PortRec.discardQueue_state (q : PortRec) : (q.discardQueue).state = q.state := rfl
@[simp] theorem PortRec.discardQueue_epoch (q : PortRec) : (q.discardQueue).epoch = q.epoch := rfl
@[simp] theorem PortRec.discardQueue_lease (q : PortRec) : (q.discardQueue).lease = q.lease := rfl
@[simp] theorem PortRec.discardQueue_grace (q : PortRec) : (q.discardQueue).grace = q.grace := rfl
@[simp] theorem PortRec.discardQueue_warned (q : PortRec) : (q.discardQueue).warned = q.warned := rfl
@[simp] theorem PortRec.discardQueue_reply (q : PortRec) : (q.discardQueue).reply = q.reply := rfl
@[simp] theorem PortRec.discardQueue_transfer (q : PortRec) : (q.discardQueue).transfer = q.transfer := rfl
@[simp] theorem PortRec.discardQueue_dataOut (q : PortRec) : (q.discardQueue).dataOut = q.dataOut := rfl
@[simp] theorem PortRec.discardQueue_errors (q : PortRec) : (q.discardQueue).errors = q.errors := rfl
@[simp] theorem PortRec.discardQueue_duplicate (q : PortRec) : (q.discardQueue).duplicate = q.duplicate := rfl
@[simp] theorem PortRec.discardQueue_chain (q : PortRec) : (q.discardQueue).chain = q.chain := rfl
@[simp] theorem PortRec.discardQueue_events (q : PortRec) : (q.discardQueue).events = q.events := rfl
@[simp] theorem PortRec.discardQueue_lost (q : PortRec) : (q.discardQueue).lost = q.lost := rfl
@[simp] theorem PortRec.discardQueue_windowsHeld (q : PortRec) : (q.discardQueue).windowsHeld = q.windowsHeld := rfl
@[simp] theorem PortRec.discardQueue_stripsHeld (q : PortRec) : (q.discardQueue).stripsHeld = q.stripsHeld := rfl
@[simp] theorem PortRec.discardQueue_bank (q : PortRec) : (q.discardQueue).bank = q.bank := rfl
@[simp] theorem PortRec.discardQueue_brightness (q : PortRec) : (q.discardQueue).brightness = q.brightness := rfl
@[simp] theorem PortRec.discardQueue_tone (q : PortRec) : (q.discardQueue).tone = q.tone := rfl

@[simp] theorem PortRec.close_epoch (q : PortRec) : (q.close).epoch = q.epoch := rfl
@[simp] theorem PortRec.close_dataOut (q : PortRec) : (q.close).dataOut = q.dataOut := rfl
@[simp] theorem PortRec.close_errors (q : PortRec) : (q.close).errors = q.errors := rfl
@[simp] theorem PortRec.close_duplicate (q : PortRec) : (q.close).duplicate = q.duplicate := rfl
@[simp] theorem PortRec.close_queue (q : PortRec) : (q.close).queue = q.queue := rfl
@[simp] theorem PortRec.close_progress (q : PortRec) : (q.close).progress = q.progress := rfl
@[simp] theorem PortRec.close_stopMark (q : PortRec) : (q.close).stopMark = q.stopMark := rfl
@[simp] theorem PortRec.close_chain (q : PortRec) : (q.close).chain = q.chain := rfl
@[simp] theorem PortRec.close_windowsHeld (q : PortRec) : (q.close).windowsHeld = q.windowsHeld := rfl
@[simp] theorem PortRec.close_stripsHeld (q : PortRec) : (q.close).stripsHeld = q.stripsHeld := rfl
@[simp] theorem PortRec.close_bank (q : PortRec) : (q.close).bank = q.bank := rfl

@[simp] theorem PortRec.popHead_state (q : PortRec) (st : Status) : (q.popHead st).state = q.state := rfl
@[simp] theorem PortRec.popHead_epoch (q : PortRec) (st : Status) : (q.popHead st).epoch = q.epoch := rfl
@[simp] theorem PortRec.popHead_lease (q : PortRec) (st : Status) : (q.popHead st).lease = q.lease := rfl
@[simp] theorem PortRec.popHead_grace (q : PortRec) (st : Status) : (q.popHead st).grace = q.grace := rfl
@[simp] theorem PortRec.popHead_warned (q : PortRec) (st : Status) : (q.popHead st).warned = q.warned := rfl
@[simp] theorem PortRec.popHead_reply (q : PortRec) (st : Status) : (q.popHead st).reply = q.reply := rfl
@[simp] theorem PortRec.popHead_transfer (q : PortRec) (st : Status) : (q.popHead st).transfer = q.transfer := rfl
@[simp] theorem PortRec.popHead_dataOut (q : PortRec) (st : Status) : (q.popHead st).dataOut = q.dataOut := rfl
@[simp] theorem PortRec.popHead_errors (q : PortRec) (st : Status) : (q.popHead st).errors = q.errors := rfl
@[simp] theorem PortRec.popHead_duplicate (q : PortRec) (st : Status) : (q.popHead st).duplicate = q.duplicate := rfl
@[simp] theorem PortRec.popHead_events (q : PortRec) (st : Status) : (q.popHead st).events = q.events := rfl
@[simp] theorem PortRec.popHead_lost (q : PortRec) (st : Status) : (q.popHead st).lost = q.lost := rfl
@[simp] theorem PortRec.popHead_windowsHeld (q : PortRec) (st : Status) : (q.popHead st).windowsHeld = q.windowsHeld := rfl
@[simp] theorem PortRec.popHead_stripsHeld (q : PortRec) (st : Status) : (q.popHead st).stripsHeld = q.stripsHeld := rfl
@[simp] theorem PortRec.popHead_bank (q : PortRec) (st : Status) : (q.popHead st).bank = q.bank := rfl
@[simp] theorem PortRec.popHead_brightness (q : PortRec) (st : Status) : (q.popHead st).brightness = q.brightness := rfl
@[simp] theorem PortRec.popHead_tone (q : PortRec) (st : Status) : (q.popHead st).tone = q.tone := rfl

@[simp] theorem PortRec.startSession_reply (q : PortRec) (n : Nat) : (q.startSession n).reply = q.reply := rfl
@[simp] theorem PortRec.startSession_transfer (q : PortRec) (n : Nat) : (q.startSession n).transfer = q.transfer := rfl
@[simp] theorem PortRec.startSession_dataOut (q : PortRec) (n : Nat) : (q.startSession n).dataOut = q.dataOut := rfl
@[simp] theorem PortRec.startSession_queue (q : PortRec) (n : Nat) : (q.startSession n).queue = q.queue := rfl
@[simp] theorem PortRec.startSession_progress (q : PortRec) (n : Nat) : (q.startSession n).progress = q.progress := rfl
@[simp] theorem PortRec.startSession_stopMark (q : PortRec) (n : Nat) : (q.startSession n).stopMark = q.stopMark := rfl
@[simp] theorem PortRec.startSession_events (q : PortRec) (n : Nat) : (q.startSession n).events = q.events := rfl
@[simp] theorem PortRec.startSession_lost (q : PortRec) (n : Nat) : (q.startSession n).lost = q.lost := rfl
@[simp] theorem PortRec.startSession_windowsHeld (q : PortRec) (n : Nat) : (q.startSession n).windowsHeld = q.windowsHeld := rfl
@[simp] theorem PortRec.startSession_stripsHeld (q : PortRec) (n : Nat) : (q.startSession n).stripsHeld = q.stripsHeld := rfl
@[simp] theorem PortRec.startSession_bank (q : PortRec) (n : Nat) : (q.startSession n).bank = q.bank := rfl
@[simp] theorem PortRec.startSession_brightness (q : PortRec) (n : Nat) : (q.startSession n).brightness = q.brightness := rfl
@[simp] theorem PortRec.startSession_waiter (q : PortRec) (n : Nat) : (q.startSession n).waiter = q.waiter := rfl
@[simp] theorem PortRec.startSession_tone (q : PortRec) (n : Nat) : (q.startSession n).tone = q.tone := rfl

@[simp] theorem PortRec.renewLease_epoch (q : PortRec) (n : Nat) : (q.renewLease n).epoch = q.epoch := rfl
@[simp] theorem PortRec.renewLease_reply (q : PortRec) (n : Nat) : (q.renewLease n).reply = q.reply := rfl
@[simp] theorem PortRec.renewLease_transfer (q : PortRec) (n : Nat) : (q.renewLease n).transfer = q.transfer := rfl
@[simp] theorem PortRec.renewLease_dataOut (q : PortRec) (n : Nat) : (q.renewLease n).dataOut = q.dataOut := rfl
@[simp] theorem PortRec.renewLease_errors (q : PortRec) (n : Nat) : (q.renewLease n).errors = q.errors := rfl
@[simp] theorem PortRec.renewLease_duplicate (q : PortRec) (n : Nat) : (q.renewLease n).duplicate = q.duplicate := rfl
@[simp] theorem PortRec.renewLease_queue (q : PortRec) (n : Nat) : (q.renewLease n).queue = q.queue := rfl
@[simp] theorem PortRec.renewLease_progress (q : PortRec) (n : Nat) : (q.renewLease n).progress = q.progress := rfl
@[simp] theorem PortRec.renewLease_stopMark (q : PortRec) (n : Nat) : (q.renewLease n).stopMark = q.stopMark := rfl
@[simp] theorem PortRec.renewLease_chain (q : PortRec) (n : Nat) : (q.renewLease n).chain = q.chain := rfl
@[simp] theorem PortRec.renewLease_events (q : PortRec) (n : Nat) : (q.renewLease n).events = q.events := rfl
@[simp] theorem PortRec.renewLease_lost (q : PortRec) (n : Nat) : (q.renewLease n).lost = q.lost := rfl
@[simp] theorem PortRec.renewLease_windowsHeld (q : PortRec) (n : Nat) : (q.renewLease n).windowsHeld = q.windowsHeld := rfl
@[simp] theorem PortRec.renewLease_stripsHeld (q : PortRec) (n : Nat) : (q.renewLease n).stripsHeld = q.stripsHeld := rfl
@[simp] theorem PortRec.renewLease_bank (q : PortRec) (n : Nat) : (q.renewLease n).bank = q.bank := rfl
@[simp] theorem PortRec.renewLease_brightness (q : PortRec) (n : Nat) : (q.renewLease n).brightness = q.brightness := rfl
@[simp] theorem PortRec.renewLease_waiter (q : PortRec) (n : Nat) : (q.renewLease n).waiter = q.waiter := rfl
@[simp] theorem PortRec.renewLease_tone (q : PortRec) (n : Nat) : (q.renewLease n).tone = q.tone := rfl

@[simp] theorem PortRec.onlyHead_state (q : PortRec) : (q.onlyHead).state = q.state := rfl
@[simp] theorem PortRec.onlyHead_epoch (q : PortRec) : (q.onlyHead).epoch = q.epoch := rfl
@[simp] theorem PortRec.onlyHead_lease (q : PortRec) : (q.onlyHead).lease = q.lease := rfl
@[simp] theorem PortRec.onlyHead_grace (q : PortRec) : (q.onlyHead).grace = q.grace := rfl
@[simp] theorem PortRec.onlyHead_warned (q : PortRec) : (q.onlyHead).warned = q.warned := rfl
@[simp] theorem PortRec.onlyHead_reply (q : PortRec) : (q.onlyHead).reply = q.reply := rfl
@[simp] theorem PortRec.onlyHead_transfer (q : PortRec) : (q.onlyHead).transfer = q.transfer := rfl
@[simp] theorem PortRec.onlyHead_dataOut (q : PortRec) : (q.onlyHead).dataOut = q.dataOut := rfl
@[simp] theorem PortRec.onlyHead_errors (q : PortRec) : (q.onlyHead).errors = q.errors := rfl
@[simp] theorem PortRec.onlyHead_duplicate (q : PortRec) : (q.onlyHead).duplicate = q.duplicate := rfl
@[simp] theorem PortRec.onlyHead_progress (q : PortRec) : (q.onlyHead).progress = q.progress := rfl
@[simp] theorem PortRec.onlyHead_stopMark (q : PortRec) : (q.onlyHead).stopMark = q.stopMark := rfl
@[simp] theorem PortRec.onlyHead_chain (q : PortRec) : (q.onlyHead).chain = q.chain := rfl
@[simp] theorem PortRec.onlyHead_events (q : PortRec) : (q.onlyHead).events = q.events := rfl
@[simp] theorem PortRec.onlyHead_lost (q : PortRec) : (q.onlyHead).lost = q.lost := rfl
@[simp] theorem PortRec.onlyHead_windowsHeld (q : PortRec) : (q.onlyHead).windowsHeld = q.windowsHeld := rfl
@[simp] theorem PortRec.onlyHead_stripsHeld (q : PortRec) : (q.onlyHead).stripsHeld = q.stripsHeld := rfl
@[simp] theorem PortRec.onlyHead_bank (q : PortRec) : (q.onlyHead).bank = q.bank := rfl
@[simp] theorem PortRec.onlyHead_brightness (q : PortRec) : (q.onlyHead).brightness = q.brightness := rfl
@[simp] theorem PortRec.onlyHead_waiter (q : PortRec) : (q.onlyHead).waiter = q.waiter := rfl
@[simp] theorem PortRec.onlyHead_tone (q : PortRec) : (q.onlyHead).tone = q.tone := rfl

@[simp] theorem PortRec.afterAbort_state (q : PortRec) : (q.afterAbort).state = q.state := rfl
@[simp] theorem PortRec.afterAbort_epoch (q : PortRec) : (q.afterAbort).epoch = q.epoch := rfl
@[simp] theorem PortRec.afterAbort_lease (q : PortRec) : (q.afterAbort).lease = q.lease := rfl
@[simp] theorem PortRec.afterAbort_grace (q : PortRec) : (q.afterAbort).grace = q.grace := rfl
@[simp] theorem PortRec.afterAbort_warned (q : PortRec) : (q.afterAbort).warned = q.warned := rfl
@[simp] theorem PortRec.afterAbort_reply (q : PortRec) : (q.afterAbort).reply = q.reply := rfl
@[simp] theorem PortRec.afterAbort_transfer (q : PortRec) : (q.afterAbort).transfer = q.transfer := rfl
@[simp] theorem PortRec.afterAbort_dataOut (q : PortRec) : (q.afterAbort).dataOut = q.dataOut := rfl
@[simp] theorem PortRec.afterAbort_errors (q : PortRec) : (q.afterAbort).errors = q.errors := rfl
@[simp] theorem PortRec.afterAbort_queue (q : PortRec) : (q.afterAbort).queue = q.queue := rfl
@[simp] theorem PortRec.afterAbort_progress (q : PortRec) : (q.afterAbort).progress = q.progress := rfl
@[simp] theorem PortRec.afterAbort_stopMark (q : PortRec) : (q.afterAbort).stopMark = q.stopMark := rfl
@[simp] theorem PortRec.afterAbort_events (q : PortRec) : (q.afterAbort).events = q.events := rfl
@[simp] theorem PortRec.afterAbort_lost (q : PortRec) : (q.afterAbort).lost = q.lost := rfl
@[simp] theorem PortRec.afterAbort_windowsHeld (q : PortRec) : (q.afterAbort).windowsHeld = q.windowsHeld := rfl
@[simp] theorem PortRec.afterAbort_stripsHeld (q : PortRec) : (q.afterAbort).stripsHeld = q.stripsHeld := rfl
@[simp] theorem PortRec.afterAbort_bank (q : PortRec) : (q.afterAbort).bank = q.bank := rfl
@[simp] theorem PortRec.afterAbort_brightness (q : PortRec) : (q.afterAbort).brightness = q.brightness := rfl
@[simp] theorem PortRec.afterAbort_waiter (q : PortRec) : (q.afterAbort).waiter = q.waiter := rfl
@[simp] theorem PortRec.afterAbort_tone (q : PortRec) : (q.afterAbort).tone = q.tone := rfl

@[simp] theorem PortRec.enqueue_state (q : PortRec) (c : QCmd) (key : Byte × Byte) : (q.enqueue c key).state = q.state := rfl
@[simp] theorem PortRec.enqueue_epoch (q : PortRec) (c : QCmd) (key : Byte × Byte) : (q.enqueue c key).epoch = q.epoch := rfl
@[simp] theorem PortRec.enqueue_lease (q : PortRec) (c : QCmd) (key : Byte × Byte) : (q.enqueue c key).lease = q.lease := rfl
@[simp] theorem PortRec.enqueue_grace (q : PortRec) (c : QCmd) (key : Byte × Byte) : (q.enqueue c key).grace = q.grace := rfl
@[simp] theorem PortRec.enqueue_warned (q : PortRec) (c : QCmd) (key : Byte × Byte) : (q.enqueue c key).warned = q.warned := rfl
@[simp] theorem PortRec.enqueue_reply (q : PortRec) (c : QCmd) (key : Byte × Byte) : (q.enqueue c key).reply = q.reply := rfl
@[simp] theorem PortRec.enqueue_transfer (q : PortRec) (c : QCmd) (key : Byte × Byte) : (q.enqueue c key).transfer = q.transfer := rfl
@[simp] theorem PortRec.enqueue_dataOut (q : PortRec) (c : QCmd) (key : Byte × Byte) : (q.enqueue c key).dataOut = q.dataOut := rfl
@[simp] theorem PortRec.enqueue_errors (q : PortRec) (c : QCmd) (key : Byte × Byte) : (q.enqueue c key).errors = q.errors := rfl
@[simp] theorem PortRec.enqueue_chain (q : PortRec) (c : QCmd) (key : Byte × Byte) : (q.enqueue c key).chain = q.chain := rfl
@[simp] theorem PortRec.enqueue_events (q : PortRec) (c : QCmd) (key : Byte × Byte) : (q.enqueue c key).events = q.events := rfl
@[simp] theorem PortRec.enqueue_lost (q : PortRec) (c : QCmd) (key : Byte × Byte) : (q.enqueue c key).lost = q.lost := rfl
@[simp] theorem PortRec.enqueue_windowsHeld (q : PortRec) (c : QCmd) (key : Byte × Byte) : (q.enqueue c key).windowsHeld = q.windowsHeld := rfl
@[simp] theorem PortRec.enqueue_stripsHeld (q : PortRec) (c : QCmd) (key : Byte × Byte) : (q.enqueue c key).stripsHeld = q.stripsHeld := rfl
@[simp] theorem PortRec.enqueue_bank (q : PortRec) (c : QCmd) (key : Byte × Byte) : (q.enqueue c key).bank = q.bank := rfl
@[simp] theorem PortRec.enqueue_brightness (q : PortRec) (c : QCmd) (key : Byte × Byte) : (q.enqueue c key).brightness = q.brightness := rfl
@[simp] theorem PortRec.enqueue_waiter (q : PortRec) (c : QCmd) (key : Byte × Byte) : (q.enqueue c key).waiter = q.waiter := rfl
@[simp] theorem PortRec.enqueue_tone (q : PortRec) (c : QCmd) (key : Byte × Byte) : (q.enqueue c key).tone = q.tone := rfl

@[simp] theorem PortRec.holdEvents_state (q : PortRec) (tag : Byte) : (q.holdEvents tag).state = q.state := rfl
@[simp] theorem PortRec.holdEvents_epoch (q : PortRec) (tag : Byte) : (q.holdEvents tag).epoch = q.epoch := rfl
@[simp] theorem PortRec.holdEvents_lease (q : PortRec) (tag : Byte) : (q.holdEvents tag).lease = q.lease := rfl
@[simp] theorem PortRec.holdEvents_grace (q : PortRec) (tag : Byte) : (q.holdEvents tag).grace = q.grace := rfl
@[simp] theorem PortRec.holdEvents_warned (q : PortRec) (tag : Byte) : (q.holdEvents tag).warned = q.warned := rfl
@[simp] theorem PortRec.holdEvents_dataOut (q : PortRec) (tag : Byte) : (q.holdEvents tag).dataOut = [] := rfl
@[simp] theorem PortRec.holdEvents_errors (q : PortRec) (tag : Byte) : (q.holdEvents tag).errors = q.errors := rfl
@[simp] theorem PortRec.holdEvents_duplicate (q : PortRec) (tag : Byte) : (q.holdEvents tag).duplicate = q.duplicate := rfl
@[simp] theorem PortRec.holdEvents_queue (q : PortRec) (tag : Byte) : (q.holdEvents tag).queue = q.queue := rfl
@[simp] theorem PortRec.holdEvents_progress (q : PortRec) (tag : Byte) : (q.holdEvents tag).progress = q.progress := rfl
@[simp] theorem PortRec.holdEvents_stopMark (q : PortRec) (tag : Byte) : (q.holdEvents tag).stopMark = q.stopMark := rfl
@[simp] theorem PortRec.holdEvents_chain (q : PortRec) (tag : Byte) : (q.holdEvents tag).chain = q.chain := rfl
@[simp] theorem PortRec.holdEvents_lost (q : PortRec) (tag : Byte) : (q.holdEvents tag).lost = q.lost := rfl
@[simp] theorem PortRec.holdEvents_windowsHeld (q : PortRec) (tag : Byte) : (q.holdEvents tag).windowsHeld = q.windowsHeld := rfl
@[simp] theorem PortRec.holdEvents_stripsHeld (q : PortRec) (tag : Byte) : (q.holdEvents tag).stripsHeld = q.stripsHeld := rfl
@[simp] theorem PortRec.holdEvents_bank (q : PortRec) (tag : Byte) : (q.holdEvents tag).bank = q.bank := rfl
@[simp] theorem PortRec.holdEvents_brightness (q : PortRec) (tag : Byte) : (q.holdEvents tag).brightness = q.brightness := rfl
@[simp] theorem PortRec.holdEvents_waiter (q : PortRec) (tag : Byte) : (q.holdEvents tag).waiter = q.waiter := rfl
@[simp] theorem PortRec.holdEvents_tone (q : PortRec) (tag : Byte) : (q.holdEvents tag).tone = q.tone := rfl

@[simp] theorem PortRec.consume_state (q : PortRec) : (q.consume).state = q.state := rfl
@[simp] theorem PortRec.consume_epoch (q : PortRec) : (q.consume).epoch = q.epoch := rfl
@[simp] theorem PortRec.consume_lease (q : PortRec) : (q.consume).lease = q.lease := rfl
@[simp] theorem PortRec.consume_grace (q : PortRec) : (q.consume).grace = q.grace := rfl
@[simp] theorem PortRec.consume_warned (q : PortRec) : (q.consume).warned = q.warned := rfl
@[simp] theorem PortRec.consume_transfer (q : PortRec) : (q.consume).transfer = q.transfer := rfl
@[simp] theorem PortRec.consume_dataOut (q : PortRec) : (q.consume).dataOut = q.dataOut := rfl
@[simp] theorem PortRec.consume_errors (q : PortRec) : (q.consume).errors = q.errors := rfl
@[simp] theorem PortRec.consume_duplicate (q : PortRec) : (q.consume).duplicate = q.duplicate := rfl
@[simp] theorem PortRec.consume_queue (q : PortRec) : (q.consume).queue = q.queue := rfl
@[simp] theorem PortRec.consume_progress (q : PortRec) : (q.consume).progress = q.progress := rfl
@[simp] theorem PortRec.consume_stopMark (q : PortRec) : (q.consume).stopMark = q.stopMark := rfl
@[simp] theorem PortRec.consume_chain (q : PortRec) : (q.consume).chain = q.chain := rfl
@[simp] theorem PortRec.consume_windowsHeld (q : PortRec) : (q.consume).windowsHeld = q.windowsHeld := rfl
@[simp] theorem PortRec.consume_stripsHeld (q : PortRec) : (q.consume).stripsHeld = q.stripsHeld := rfl
@[simp] theorem PortRec.consume_bank (q : PortRec) : (q.consume).bank = q.bank := rfl
@[simp] theorem PortRec.consume_brightness (q : PortRec) : (q.consume).brightness = q.brightness := rfl
@[simp] theorem PortRec.consume_waiter (q : PortRec) : (q.consume).waiter = q.waiter := rfl
@[simp] theorem PortRec.consume_tone (q : PortRec) : (q.consume).tone = q.tone := rfl

@[simp] theorem PortRec.beginFetch_state (q : PortRec) : (q.beginFetch).state = q.state := rfl
@[simp] theorem PortRec.beginFetch_epoch (q : PortRec) : (q.beginFetch).epoch = q.epoch := rfl
@[simp] theorem PortRec.beginFetch_lease (q : PortRec) : (q.beginFetch).lease = q.lease := rfl
@[simp] theorem PortRec.beginFetch_grace (q : PortRec) : (q.beginFetch).grace = q.grace := rfl
@[simp] theorem PortRec.beginFetch_warned (q : PortRec) : (q.beginFetch).warned = q.warned := rfl
@[simp] theorem PortRec.beginFetch_reply (q : PortRec) : (q.beginFetch).reply = q.reply := rfl
@[simp] theorem PortRec.beginFetch_dataOut (q : PortRec) : (q.beginFetch).dataOut = [] := rfl
@[simp] theorem PortRec.beginFetch_errors (q : PortRec) : (q.beginFetch).errors = q.errors := rfl
@[simp] theorem PortRec.beginFetch_duplicate (q : PortRec) : (q.beginFetch).duplicate = q.duplicate := rfl
@[simp] theorem PortRec.beginFetch_queue (q : PortRec) : (q.beginFetch).queue = q.queue := rfl
@[simp] theorem PortRec.beginFetch_progress (q : PortRec) : (q.beginFetch).progress = q.progress := rfl
@[simp] theorem PortRec.beginFetch_stopMark (q : PortRec) : (q.beginFetch).stopMark = q.stopMark := rfl
@[simp] theorem PortRec.beginFetch_chain (q : PortRec) : (q.beginFetch).chain = q.chain := rfl
@[simp] theorem PortRec.beginFetch_events (q : PortRec) : (q.beginFetch).events = q.events := rfl
@[simp] theorem PortRec.beginFetch_lost (q : PortRec) : (q.beginFetch).lost = q.lost := rfl
@[simp] theorem PortRec.beginFetch_windowsHeld (q : PortRec) : (q.beginFetch).windowsHeld = q.windowsHeld := rfl
@[simp] theorem PortRec.beginFetch_stripsHeld (q : PortRec) : (q.beginFetch).stripsHeld = q.stripsHeld := rfl
@[simp] theorem PortRec.beginFetch_bank (q : PortRec) : (q.beginFetch).bank = q.bank := rfl
@[simp] theorem PortRec.beginFetch_brightness (q : PortRec) : (q.beginFetch).brightness = q.brightness := rfl
@[simp] theorem PortRec.beginFetch_waiter (q : PortRec) : (q.beginFetch).waiter = q.waiter := rfl
@[simp] theorem PortRec.beginFetch_tone (q : PortRec) : (q.beginFetch).tone = q.tone := rfl

@[simp] theorem PortRec.holdData_state (q : PortRec) : q.holdData.state = q.state := rfl
@[simp] theorem PortRec.holdData_epoch (q : PortRec) : q.holdData.epoch = q.epoch := rfl
@[simp] theorem PortRec.holdData_lease (q : PortRec) : q.holdData.lease = q.lease := rfl
@[simp] theorem PortRec.holdData_grace (q : PortRec) : q.holdData.grace = q.grace := rfl
@[simp] theorem PortRec.holdData_warned (q : PortRec) : q.holdData.warned = q.warned := rfl
@[simp] theorem PortRec.holdData_reply (q : PortRec) : q.holdData.reply = q.reply := rfl
@[simp] theorem PortRec.holdData_dataOut (q : PortRec) : q.holdData.dataOut = [] := rfl
@[simp] theorem PortRec.holdData_errors (q : PortRec) : q.holdData.errors = q.errors := rfl
@[simp] theorem PortRec.holdData_duplicate (q : PortRec) : q.holdData.duplicate = q.duplicate := rfl
@[simp] theorem PortRec.holdData_queue (q : PortRec) : q.holdData.queue = q.queue := rfl
@[simp] theorem PortRec.holdData_progress (q : PortRec) : q.holdData.progress = q.progress := rfl
@[simp] theorem PortRec.holdData_stopMark (q : PortRec) : q.holdData.stopMark = q.stopMark := rfl
@[simp] theorem PortRec.holdData_chain (q : PortRec) : q.holdData.chain = q.chain := rfl
@[simp] theorem PortRec.holdData_events (q : PortRec) : q.holdData.events = q.events := rfl
@[simp] theorem PortRec.holdData_lost (q : PortRec) : q.holdData.lost = q.lost := rfl
@[simp] theorem PortRec.holdData_windowsHeld (q : PortRec) : q.holdData.windowsHeld = q.windowsHeld := rfl
@[simp] theorem PortRec.holdData_stripsHeld (q : PortRec) : q.holdData.stripsHeld = q.stripsHeld := rfl
@[simp] theorem PortRec.holdData_bank (q : PortRec) : q.holdData.bank = q.bank := rfl
@[simp] theorem PortRec.holdData_brightness (q : PortRec) : q.holdData.brightness = q.brightness := rfl
@[simp] theorem PortRec.holdData_waiter (q : PortRec) : q.holdData.waiter = q.waiter := rfl
@[simp] theorem PortRec.holdData_tone (q : PortRec) : q.holdData.tone = q.tone := rfl
@[simp] theorem PortRec.holdData_transfer (q : PortRec) : q.holdData.transfer = q.transfer := rfl

@[simp] theorem PortRec.startState_epoch (q : PortRec) (e : Bool) : (q.startState e).epoch = q.epoch := rfl
@[simp] theorem PortRec.startState_lease (q : PortRec) (e : Bool) : (q.startState e).lease = q.lease := rfl
@[simp] theorem PortRec.startState_grace (q : PortRec) (e : Bool) : (q.startState e).grace = q.grace := rfl
@[simp] theorem PortRec.startState_warned (q : PortRec) (e : Bool) : (q.startState e).warned = q.warned := rfl
@[simp] theorem PortRec.startState_reply (q : PortRec) (e : Bool) : (q.startState e).reply = q.reply := rfl
@[simp] theorem PortRec.startState_transfer (q : PortRec) (e : Bool) : (q.startState e).transfer = q.transfer := rfl
@[simp] theorem PortRec.startState_dataOut (q : PortRec) (e : Bool) : (q.startState e).dataOut = q.dataOut := rfl
@[simp] theorem PortRec.startState_errors (q : PortRec) (e : Bool) : (q.startState e).errors = q.errors := rfl
@[simp] theorem PortRec.startState_duplicate (q : PortRec) (e : Bool) : (q.startState e).duplicate = q.duplicate := rfl
@[simp] theorem PortRec.startState_queue (q : PortRec) (e : Bool) : (q.startState e).queue = q.queue := rfl
@[simp] theorem PortRec.startState_progress (q : PortRec) (e : Bool) : (q.startState e).progress = q.progress := rfl
@[simp] theorem PortRec.startState_stopMark (q : PortRec) (e : Bool) : (q.startState e).stopMark = q.stopMark := rfl
@[simp] theorem PortRec.startState_chain (q : PortRec) (e : Bool) : (q.startState e).chain = q.chain := rfl
@[simp] theorem PortRec.startState_events (q : PortRec) (e : Bool) : (q.startState e).events = q.events := rfl
@[simp] theorem PortRec.startState_lost (q : PortRec) (e : Bool) : (q.startState e).lost = q.lost := rfl
@[simp] theorem PortRec.startState_windowsHeld (q : PortRec) (e : Bool) : (q.startState e).windowsHeld = q.windowsHeld := rfl
@[simp] theorem PortRec.startState_stripsHeld (q : PortRec) (e : Bool) : (q.startState e).stripsHeld = q.stripsHeld := rfl
@[simp] theorem PortRec.startState_bank (q : PortRec) (e : Bool) : (q.startState e).bank = q.bank := rfl
@[simp] theorem PortRec.startState_brightness (q : PortRec) (e : Bool) : (q.startState e).brightness = q.brightness := rfl
@[simp] theorem PortRec.startState_waiter (q : PortRec) (e : Bool) : (q.startState e).waiter = q.waiter := rfl
@[simp] theorem PortRec.startState_tone (q : PortRec) (e : Bool) : (q.startState e).tone = q.tone := rfl

@[simp] theorem PortRec.tick_state (q : PortRec) : (q.tick).state = q.state := rfl
@[simp] theorem PortRec.tick_epoch (q : PortRec) : (q.tick).epoch = q.epoch := rfl
@[simp] theorem PortRec.tick_warned (q : PortRec) : (q.tick).warned = q.warned := rfl
@[simp] theorem PortRec.tick_reply (q : PortRec) : (q.tick).reply = q.reply := rfl
@[simp] theorem PortRec.tick_transfer (q : PortRec) : (q.tick).transfer = q.transfer := rfl
@[simp] theorem PortRec.tick_dataOut (q : PortRec) : (q.tick).dataOut = q.dataOut := rfl
@[simp] theorem PortRec.tick_errors (q : PortRec) : (q.tick).errors = q.errors := rfl
@[simp] theorem PortRec.tick_duplicate (q : PortRec) : (q.tick).duplicate = q.duplicate := rfl
@[simp] theorem PortRec.tick_queue (q : PortRec) : (q.tick).queue = q.queue := rfl
@[simp] theorem PortRec.tick_progress (q : PortRec) : (q.tick).progress = q.progress := rfl
@[simp] theorem PortRec.tick_stopMark (q : PortRec) : (q.tick).stopMark = q.stopMark := rfl
@[simp] theorem PortRec.tick_chain (q : PortRec) : (q.tick).chain = q.chain := rfl
@[simp] theorem PortRec.tick_events (q : PortRec) : (q.tick).events = q.events := rfl
@[simp] theorem PortRec.tick_lost (q : PortRec) : (q.tick).lost = q.lost := rfl
@[simp] theorem PortRec.tick_windowsHeld (q : PortRec) : (q.tick).windowsHeld = q.windowsHeld := rfl
@[simp] theorem PortRec.tick_stripsHeld (q : PortRec) : (q.tick).stripsHeld = q.stripsHeld := rfl
@[simp] theorem PortRec.tick_bank (q : PortRec) : (q.tick).bank = q.bank := rfl
@[simp] theorem PortRec.tick_brightness (q : PortRec) : (q.tick).brightness = q.brightness := rfl
@[simp] theorem PortRec.tick_waiter (q : PortRec) : (q.tick).waiter = q.waiter := rfl

/-! ## Readings through a record update: each reading depends on its own field alone -/

@[simp] theorem State.ports_get (s : State) (p : Port) : s.ports.get p = s.port p := rfl
@[simp] theorem State.keys_get (s : State) (k : KeyId) : s.keys.get k = s.key k := rfl
@[simp] theorem State.windows_find (s : State) (h : Handle) : s.windows.find? (fun w => w.handle == h) = s.windowOf h := rfl
@[simp] theorem State.profile_getD (s : State) : s.profile.getD Profile.default_ = s.prof := rfl
@[simp] theorem State.port_mk
    (device : DeviceState) (timeBase : BitVec 16) (profile : Option Profile) (profileDefaulted : Bool)
    (ports : Vector PortRec 4) (windows : List Window) (generations : Vector Byte 24) (memory : Memory) (available : List Nat)
    (retiring : List Nat) (waitingRemoval : Option Port) (slice : Option Port) (urgentNext : Port) (normalNext : Port) (urgentRun : Nat)
    (frameNumber : BitVec 16) (blinkCount : Nat) (framePhase : Nat) (latched : Option Latched) (brightness : Nat)
    (scanRow : Nat) (rowBuffer : List FetchedCell) (pixelRows : List (List Colour)) (sampler : Sampler) (capture : Capture)
    (focus : Option Handle) (keys : Vector KeyRec 8) (toneSeq : Nat) (sounding : Option Port) (sounder : Option Pitch)
    (pending : List Instr)
    (p : Port) :
    (State.mk
      device timeBase profile profileDefaulted ports windows generations memory available retiring waitingRemoval slice urgentNext
      normalNext urgentRun frameNumber blinkCount framePhase latched brightness scanRow rowBuffer pixelRows sampler capture focus keys
      toneSeq sounding sounder pending).port p = ports.get p := rfl
@[simp] theorem State.key_mk
    (device : DeviceState) (timeBase : BitVec 16) (profile : Option Profile) (profileDefaulted : Bool)
    (ports : Vector PortRec 4) (windows : List Window) (generations : Vector Byte 24) (memory : Memory) (available : List Nat)
    (retiring : List Nat) (waitingRemoval : Option Port) (slice : Option Port) (urgentNext : Port) (normalNext : Port) (urgentRun : Nat)
    (frameNumber : BitVec 16) (blinkCount : Nat) (framePhase : Nat) (latched : Option Latched) (brightness : Nat)
    (scanRow : Nat) (rowBuffer : List FetchedCell) (pixelRows : List (List Colour)) (sampler : Sampler) (capture : Capture)
    (focus : Option Handle) (keys : Vector KeyRec 8) (toneSeq : Nat) (sounding : Option Port) (sounder : Option Pitch)
    (pending : List Instr)
    (k : KeyId) :
    (State.mk
      device timeBase profile profileDefaulted ports windows generations memory available retiring waitingRemoval slice urgentNext
      normalNext urgentRun frameNumber blinkCount framePhase latched brightness scanRow rowBuffer pixelRows sampler capture focus keys
      toneSeq sounding sounder pending).key k = keys.get k := rfl
@[simp] theorem State.windowOf_mk
    (device : DeviceState) (timeBase : BitVec 16) (profile : Option Profile) (profileDefaulted : Bool)
    (ports : Vector PortRec 4) (windows : List Window) (generations : Vector Byte 24) (memory : Memory) (available : List Nat)
    (retiring : List Nat) (waitingRemoval : Option Port) (slice : Option Port) (urgentNext : Port) (normalNext : Port) (urgentRun : Nat)
    (frameNumber : BitVec 16) (blinkCount : Nat) (framePhase : Nat) (latched : Option Latched) (brightness : Nat)
    (scanRow : Nat) (rowBuffer : List FetchedCell) (pixelRows : List (List Colour)) (sampler : Sampler) (capture : Capture)
    (focus : Option Handle) (keys : Vector KeyRec 8) (toneSeq : Nat) (sounding : Option Port) (sounder : Option Pitch)
    (pending : List Instr)
    (h : Handle) :
    (State.mk
      device timeBase profile profileDefaulted ports windows generations memory available retiring waitingRemoval slice urgentNext
      normalNext urgentRun frameNumber blinkCount framePhase latched brightness scanRow rowBuffer pixelRows sampler capture focus keys
      toneSeq sounding sounder pending).windowOf h = windows.find? (fun w => w.handle == h) := rfl
@[simp] theorem State.prof_mk
    (device : DeviceState) (timeBase : BitVec 16) (profile : Option Profile) (profileDefaulted : Bool)
    (ports : Vector PortRec 4) (windows : List Window) (generations : Vector Byte 24) (memory : Memory) (available : List Nat)
    (retiring : List Nat) (waitingRemoval : Option Port) (slice : Option Port) (urgentNext : Port) (normalNext : Port) (urgentRun : Nat)
    (frameNumber : BitVec 16) (blinkCount : Nat) (framePhase : Nat) (latched : Option Latched) (brightness : Nat)
    (scanRow : Nat) (rowBuffer : List FetchedCell) (pixelRows : List (List Colour)) (sampler : Sampler) (capture : Capture)
    (focus : Option Handle) (keys : Vector KeyRec 8) (toneSeq : Nat) (sounding : Option Port) (sounder : Option Pitch)
    (pending : List Instr)
    :
    (State.mk
      device timeBase profile profileDefaulted ports windows generations memory available retiring waitingRemoval slice urgentNext
      normalNext urgentRun frameNumber blinkCount framePhase latched brightness scanRow rowBuffer pixelRows sampler capture focus keys
      toneSeq sounding sounder pending).prof = profile.getD Profile.default_ := rfl

end Sys2Proof.Machine
end

