-- ==== Sys2Proof/Laws/Memory.lean ====
section
/-! SUPPORT. Laws/Memory.lean: the strip memory: every operation keeps its canonical form, a strip reads back as it was written,
and a write leaves every other strip alone. -/

namespace Sys2Proof.Machine

/-! ## Reading after writing -/

/-- A write leaves every other strip as it was, whatever the memory. -/
theorem Memory.read_write_ne (m : Memory) (k j : Nat) (v : Strip) (h : j ≠ k) :
    Memory.read (Memory.write m k v) j = Memory.read m j := by
  induction m with
  | nil => simp only [Memory.write]; split <;> simp [Memory.read, h.symm]
  | cons e rest ih =>
    obtain ⟨a, x⟩ := e
    simp only [Memory.write]
    split
    · split <;> simp [Memory.read, h.symm]
    · split
      · rename_i _ hak
        have : a ≠ j := fun e => h (by omega)
        split <;> simp [Memory.read, this, h.symm]
      · simp only [Memory.read, ih]

/-- Every strip listed lies above the bound, so a strip at or below it reads as blank. -/
theorem Memory.read_below (m : Memory) (b k : Nat) (hm : Memory.wfFrom (some b) m = true) (hk : k ≤ b) :
    Memory.read m k = blankStrip := by
  induction m generalizing b with
  | nil => rfl
  | cons e rest ih =>
    obtain ⟨a, x⟩ := e
    simp only [Memory.wfFrom, Bool.and_eq_true, decide_eq_true_eq] at hm
    have : a ≠ k := by omega
    simp only [Memory.read, this, if_false]
    exact ih a hm.2 (by omega)

/-- A strip of a memory in canonical form reads back as it was written. -/
theorem Memory.read_write_self (m : Memory) (k : Nat) (v : Strip) (lo : Option Nat) (hm : Memory.wfFrom lo m = true) :
    Memory.read (Memory.write m k v) k = v := by
  induction m generalizing lo with
  | nil =>
    simp only [Memory.write]
    split
    · rename_i h; simp [Memory.read, h]
    · simp [Memory.read]
  | cons e rest ih =>
    obtain ⟨a, x⟩ := e
    have hrest : Memory.wfFrom (some a) rest = true := by
      simp only [Memory.wfFrom, Bool.and_eq_true] at hm; exact hm.2
    simp only [Memory.write]
    split
    · rename_i hka
      split
      · rename_i hv
        have : a ≠ k := by omega
        simp only [Memory.read, this, if_false, hv]
        exact Memory.read_below rest a k hrest (by omega)
      · simp [Memory.read]
    · split
      · rename_i hak
        split
        · rename_i hv
          rw [hv]
          exact Memory.read_below rest a k hrest (by omega)
        · simp [Memory.read]
      · rename_i hak
        simp only [Memory.read, hak, if_false]
        exact ih _ hrest

/-! ## The canonical form -/

/-- A write keeps the canonical form above any bound that the strip written lies above. -/
theorem Memory.wfFrom_write (m : Memory) (k : Nat) (v : Strip) (lo : Option Nat) (hm : Memory.wfFrom lo m = true)
    (hk : ∀ b, lo = some b → b < k) : Memory.wfFrom lo (Memory.write m k v) = true := by
  induction m generalizing lo with
  | nil =>
    simp only [Memory.write]
    split
    · exact hm
    · rename_i hv
      cases lo with
      | none => simp [Memory.wfFrom, hv]
      | some b => simp [Memory.wfFrom, hv, hk b rfl]
  | cons e rest ih =>
    obtain ⟨a, x⟩ := e
    simp only [Memory.wfFrom, Bool.and_eq_true, decide_eq_true_eq] at hm
    simp only [Memory.write]
    split
    · rename_i hka
      split
      · simp [Memory.wfFrom, hm]
      · rename_i hv
        cases lo with
        | none => simp [Memory.wfFrom, hv, hka, hm]
        | some b => simp [Memory.wfFrom, hv, hka, hm, hk b rfl]
    · split
      · rename_i hak
        split
        · cases lo with
          | none =>
            cases rest with
            | nil => rfl
            | cons e2 r2 => simp only [Memory.wfFrom, Bool.and_eq_true, decide_eq_true_eq] at hm ⊢; simp [hm]
          | some b =>
            cases rest with
            | nil => rfl
            | cons e2 r2 =>
              have := hk b rfl
              simp only [Memory.wfFrom, Bool.and_eq_true, decide_eq_true_eq] at hm ⊢
              refine ⟨⟨?_, hm.2.1.2⟩, hm.2.2⟩
              omega
        · rename_i hv
          subst hak
          cases lo with
          | none => simp [Memory.wfFrom, hv, hm]
          | some b => simp [Memory.wfFrom, hv, hm, hk b rfl]
      · have hrest := ih (some a) hm.2 (by intro b hb; cases hb; omega)
        simp [Memory.wfFrom, hm, hrest]

/-- A write keeps the canonical form. -/
theorem Memory.wf_write (m : Memory) (k : Nat) (v : Strip) (hm : Memory.wf m = true) : Memory.wf (Memory.write m k v) = true :=
  Memory.wfFrom_write m k v none hm (by intro b hb; cases hb)

/-- Writing one surface cell keeps the canonical form. -/
theorem Memory.wf_setCell (m : Memory) (map : List Nat) (sc c r : Nat) (v : Cell) (hm : Memory.wf m = true) :
    Memory.wf (Memory.setCell m map sc c r v) = true := Memory.wf_write _ _ _ hm

/-- A fold of writes keeps the canonical form. -/
theorem Memory.wf_foldl {α : Type} (l : List α) (f : Memory → α → Memory)
    (hf : ∀ m a, Memory.wf m = true → Memory.wf (f m a) = true) (m : Memory) (hm : Memory.wf m = true) :
    Memory.wf (l.foldl f m) = true := by
  induction l generalizing m with
  | nil => exact hm
  | cons a l ih => exact ih _ (hf m a hm)

/-- Filling strips keeps the canonical form. -/
theorem Memory.wf_fill (m : Memory) (map : List Nat) (v : Cell) (hm : Memory.wf m = true) :
    Memory.wf (Memory.fill m map v) = true :=
  Memory.wf_foldl map _ (fun m _ h => Memory.wf_write m _ _ h) m hm

/-- A scroll keeps the canonical form. -/
theorem Memory.wf_scroll (m : Memory) (map : List Nat) (sc : Nat) (clear : Cell) (hm : Memory.wf m = true) :
    Memory.wf (Memory.scroll m map sc clear) = true :=
  Memory.wf_fill _ _ _ (Memory.wf_foldl _ _ (fun m _ h => Memory.wf_write m _ _ h) m hm)

/-- The memory after reset is in canonical form. -/
theorem Memory.wf_reset : Memory.wf State.reset.memory = true := rfl

/-! ## Surface cells (R7, R8) -/

/-- A surface cell reads back as it was written. -/
theorem Memory.cell_setCell_self (m : Memory) (map : List Nat) (sc c r : Nat) (v : Cell) (hm : Memory.wf m = true) :
    Memory.cell (Memory.setCell m map sc c r v) map sc c r = v := by
  simp only [Memory.cell, Memory.setCell]
  rw [Memory.read_write_self _ _ _ none hm]
  simp [Vector.get_eq_getElem]

/-- Writing a surface cell leaves every cell held in another strip, or at another position of that strip, as it was. -/
theorem Memory.cell_setCell_ne (m : Memory) (map map' : List Nat) (sc sc' c r c' r' : Nat) (v : Cell) (hm : Memory.wf m = true)
    (h : stripAt map' sc' c' r' ≠ stripAt map sc c r ∨ stripPos c' ≠ stripPos c) :
    Memory.cell (Memory.setCell m map sc c r v) map' sc' c' r' = Memory.cell m map' sc' c' r' := by
  simp only [Memory.cell, Memory.setCell]
  by_cases hs : stripAt map' sc' c' r' = stripAt map sc c r
  · have hp : (stripPos c).val ≠ (stripPos c').val := by
      rcases h with h | h
      · exact absurd hs h
      · exact fun e => h (Fin.ext e.symm)
    rw [hs, Memory.read_write_self _ _ _ none hm]
    simp [Vector.get_eq_getElem, hp]
  · rw [Memory.read_write_ne _ _ _ _ hs]

/-- Filling strips sets every one of them. -/
theorem Memory.read_fill_mem (m : Memory) (map : List Nat) (v : Cell) (k : Nat) (hm : Memory.wf m = true) (hk : k ∈ map) :
    Memory.read (Memory.fill m map v) k = Vector.replicate 16 v := by
  simp only [Memory.fill]
  induction map generalizing m with
  | nil => cases hk
  | cons a l ih =>
    by_cases h : k ∈ l
    · exact ih _ (Memory.wf_write m _ _ hm) h
    · have hka : k = a := by simpa [h] using hk
      subst hka
      have hkeep : ∀ (l : List Nat) (m : Memory), k ∉ l →
          Memory.read (l.foldl (fun m j => Memory.write m j (Vector.replicate 16 v)) m) k = Memory.read m k := by
        intro l
        induction l with
        | nil => intros; rfl
        | cons b l ih2 =>
          intro m hn
          simp only [List.mem_cons, not_or] at hn
          simp only [List.foldl_cons]
          rw [ih2 _ hn.2, Memory.read_write_ne _ _ _ _ hn.1]
      simp only [List.foldl_cons]
      rw [hkeep l _ h, Memory.read_write_self _ _ _ none hm]

/-- Filling strips leaves every other strip as it was. -/
theorem Memory.read_fill_not_mem (m : Memory) (map : List Nat) (v : Cell) (k : Nat) (hk : k ∉ map) :
    Memory.read (Memory.fill m map v) k = Memory.read m k := by
  simp only [Memory.fill]
  induction map generalizing m with
  | nil => rfl
  | cons a l ih =>
    simp only [List.mem_cons, not_or] at hk
    simp only [List.foldl_cons]
    rw [ih _ hk.2, Memory.read_write_ne _ _ _ _ hk.1]

end Sys2Proof.Machine
end

