-- ==== Sys2Proof/Laws/Ops.lean ====
section
/-! SUPPORT. Laws/Ops.lean: for each shared operation, what it can do, once; later proofs cite these and do not unfold it. -/

namespace Sys2Proof.Machine

/-! ## States that differ in posted records only -/

/-- `t` is `s` but for records posted to ports: event queues and lost counts. -/
def State.RecordsOnly (s t : State) : Prop := t = { s with ports := t.ports } ∧ ∀ q, OnlyRecords (s.port q) (t.port q)

theorem State.RecordsOnly.refl (s : State) : s.RecordsOnly s := ⟨rfl, fun _ => rfl⟩

theorem State.RecordsOnly.trans {s t u : State} (h : s.RecordsOnly t) (h' : t.RecordsOnly u) : s.RecordsOnly u := by
  refine ⟨?_, fun q => ?_⟩
  · rw [h'.1, h.1]
  · have a := h.2 q
    have b := h'.2 q
    unfold OnlyRecords at *
    rw [b, a]

theorem State.RecordsOnly.withFocus {s t : State} (h : s.RecordsOnly t) (f : Option Handle) :
    State.RecordsOnly { s with focus := f } { t with focus := f } :=
  ⟨congrArg (fun u : State => { u with focus := f }) h.1, h.2⟩

/-- Writing back what a port holds changes nothing. -/
@[simp] theorem State.setPort_port (s : State) (p : Port) : s.setPort p (s.port p) = s := by
  simp [State.setPort, State.port, Vector.get_eq_getElem]

/-- A port's record with other records posted to it, written back, is a state that differs in records only. -/
theorem State.RecordsOnly.setPort (s : State) (p : Port) (r : PortRec) (h : OnlyRecords (s.port p) r) :
    s.RecordsOnly (s.setPort p r) := by
  refine ⟨rfl, fun q => ?_⟩
  by_cases hq : q = p
  · subst hq; simpa using h
  · rw [State.port_setPort_ne _ _ hq]

/-- A record joins, coalesces into the newest record, or is lost (R125 to R127). -/
theorem PortRec.join_cases (q : PortRec) (r : Record) :
    (hasPlace q.events r.body.isFailed = true ∧ q.join r = { q with events := q.events ++ [r] })
      ∨ (hasPlace q.events r.body.isFailed = false ∧ ∃ es, coalesce q.events r = some es ∧ q.join r = { q with events := es })
      ∨ (hasPlace q.events r.body.isFailed = false ∧ coalesce q.events r = none
          ∧ q.join r = { q with lost := saturate q.lost }) := by
  unfold PortRec.join
  cases h : hasPlace q.events r.body.isFailed with
  | true => exact .inl ⟨rfl, rfl⟩
  | false =>
    cases hc : coalesce q.events r with
    | none => exact .inr (.inr ⟨rfl, rfl, by simp⟩)
    | some es => exact .inr (.inl ⟨rfl, es, rfl, by simp⟩)

/-- A joining record changes the event queue and the lost count only. -/
theorem PortRec.join_only (q : PortRec) (r : Record) : OnlyRecords q (q.join r) := by
  rcases q.join_cases r with ⟨-, h⟩ | ⟨-, es, -, h⟩ | ⟨-, -, h⟩ <;> rw [h]

/-- A post to a port (R124, R125): the record joins where the port takes records, and is dropped elsewhere. -/
theorem State.post_eq (s : State) (p : Port) (body : EventBody) (h : Option Handle) :
    s.post p body h = s.setPort p
      (if (s.port p).state.takesRecords then (s.port p).join ⟨body, s.timeBase, h, false⟩ else s.port p) := by
  unfold State.post
  split <;> simp

theorem State.post_records (s : State) (p : Port) (body : EventBody) (h : Option Handle) : s.RecordsOnly (s.post p body h) := by
  rw [State.post_eq]
  refine State.RecordsOnly.setPort _ _ _ ?_
  split
  · exact PortRec.join_only _ _
  · rfl

/-- A post changes nothing held for another port. -/
theorem State.post_port_ne (s : State) {p q : Port} (body : EventBody) (h : Option Handle) (hq : q ≠ p) :
    (s.post p body h).port q = s.port q := by
  rw [State.post_eq, State.port_setPort_ne _ _ hq]

theorem State.foldl_records {α : Type} (l : List α) (f : State → α → State) (hf : ∀ (s : State) a, s.RecordsOnly (f s a))
    (s : State) :
    s.RecordsOnly (l.foldl f s) := by
  induction l generalizing s with
  | nil => exact .refl s
  | cons a l ih => exact (hf s a).trans (ih _)

/-! ## Exposure, focus and capture -/

/-- A recomputation brings every window's exposure up to date and posts records (R24, R25). -/
theorem State.recomputeExposure_records (s : State) :
    State.RecordsOnly { s with windows := s.exposeFrom [] s.windows } s.recomputeExposure :=
  State.foldl_records _ _ (fun s _ => State.post_records s _ _ _) _

/-- Focus leaves the window of a handle if it holds it, with a record (R157). -/
theorem State.withdrawFocus_records (s : State) (h : Handle) (owner : Port) (reason : FocusReason) :
    State.RecordsOnly { s with focus := if s.focus = some h then none else s.focus } (s.withdrawFocus h owner reason) := by
  unfold State.withdrawFocus
  split
  · exact State.post_records _ _ _ _
  · exact .refl s

/-- Focus moves to a window, with records (R154). -/
theorem State.moveFocus_records (s : State) (w : Window) :
    State.RecordsOnly { s with focus := some w.handle } (s.moveFocus w) := by
  unfold State.moveFocus
  cases s.focusWindow with
  | none => exact State.post_records _ _ _ _
  | some f =>
    refine State.RecordsOnly.trans ?_ (State.post_records _ _ _ _)
    exact (State.post_records s f.owner (.focusLost .moved) (some f.handle)).withFocus _

/-- The capture of a removed window becomes ORPHAN, with a record; any other capture stays (R144). -/
theorem State.cancelRemoved_cases (s : State) (h : Handle) (owner : Port) :
    (∃ o, s.capture = .captured h o ∧ State.RecordsOnly { s with capture := .orphan } (s.cancelRemoved h owner))
      ∨ ((∀ o, s.capture ≠ .captured h o) ∧ s.cancelRemoved h owner = s) := by
  unfold State.cancelRemoved
  split
  · rename_i h' o hc
    split
    · rename_i hh
      subst hh
      exact .inl ⟨o, hc, State.post_records _ _ _ _⟩
    · rename_i hh
      refine .inr ⟨fun o' e => hh ?_, rfl⟩
      rw [hc] at e
      cases e
      rfl
  · rename_i hc
    exact .inr ⟨fun o e => hc h o e, rfl⟩

/-- The capture of a lapsing port becomes ORPHAN, with a record; any other capture stays (R144). -/
theorem State.cancelLapsed_cases (s : State) (p : Port) :
    (∃ h, s.capture = .captured h p ∧ State.RecordsOnly { s with capture := .orphan } (s.cancelLapsed p))
      ∨ ((∀ h, s.capture ≠ .captured h p) ∧ s.cancelLapsed p = s) := by
  unfold State.cancelLapsed
  split
  · rename_i h o hc
    split
    · rename_i hh
      subst hh
      exact .inl ⟨h, hc, State.post_records _ _ _ _⟩
    · rename_i hh
      refine .inr ⟨fun h' e => hh ?_, rfl⟩
      rw [hc] at e
      cases e
      rfl
  · rename_i hc
    exact .inr ⟨fun h e => hc h p e, rfl⟩

/-- An entry to CLOSING takes focus and capture from the port's windows and the port out of every key capture, with no
record (R145, R151, R157). -/
theorem State.closeInput_frame (s : State) (p : Port) :
    (s.closeInput p) = { s with focus := (s.closeInput p).focus, capture := (s.closeInput p).capture, keys := (s.closeInput p).keys } :=
  rfl

/-! ## Tones -/

/-- The end of a port's request: it is gone, records may be posted, and the choice is made again (R159, R165). -/
theorem State.endTone_cases (s : State) (p : Port) (reason : ToneReason) :
    ((s.port p).tone = none ∧ s.endTone p reason = s)
      ∨ ∃ u, State.RecordsOnly (s.setPort p { s.port p with tone := none }) u ∧ s.endTone p reason = u.chooseTone := by
  unfold State.endTone
  split
  · exact .inl ⟨‹_›, rfl⟩
  · refine .inr ⟨_, ?_, rfl⟩
    split
    · exact State.post_records _ _ _ _
    · exact .refl _

/-- The choice changes the sounding request and the sounder only. -/
theorem State.chooseTone_frame (s : State) :
    s.chooseTone = { s with sounding := s.soundingChoice, sounder := s.drivenPitch s.soundingChoice } := rfl

/-! ## The stack (R21) -/

/-- A window placed at the top of its band joins the others. -/
theorem insertTop_perm (w : Window) (ws : List Window) : (insertTop w ws).Perm (w :: ws) := by
  induction ws with
  | nil => exact .refl _
  | cons x xs ih =>
    simp only [insertTop]
    split
    · exact (ih.cons x).trans (.swap w x xs)
    · exact .refl _

/-- A window placed at the bottom of its band joins the others. -/
theorem insertBottom_perm (w : Window) (ws : List Window) : (insertBottom w ws).Perm (w :: ws) := by
  induction ws with
  | nil => exact .refl _
  | cons x xs ih =>
    simp only [insertBottom]
    split
    · exact .refl _
    · exact (ih.cons x).trans (.swap w x xs)

/-- The stack stays in band order when a window is placed at the top of its band. -/
theorem insertTop_ordered (w : Window) (ws : List Window) (h : ws.Pairwise (fun a b => b.band.rank ≤ a.band.rank)) :
    (insertTop w ws).Pairwise (fun a b => b.band.rank ≤ a.band.rank) := by
  induction ws with
  | nil => simp [insertTop]
  | cons x xs ih =>
    have hx := List.pairwise_cons.1 h
    simp only [insertTop]
    split
    · rename_i hlt
      refine List.pairwise_cons.2 ⟨fun y hy => ?_, ih hx.2⟩
      have hy' := (insertTop_perm w xs).mem_iff.1 hy
      rcases List.mem_cons.1 hy' with rfl | hy'
      · exact Nat.le_of_lt hlt
      · exact hx.1 y hy'
    · rename_i hge
      refine List.pairwise_cons.2 ⟨fun y hy => ?_, h⟩
      rcases List.mem_cons.1 hy with rfl | hy
      · omega
      · have := hx.1 y hy
        omega

/-- The stack stays in band order when a window is placed at the bottom of its band. -/
theorem insertBottom_ordered (w : Window) (ws : List Window) (h : ws.Pairwise (fun a b => b.band.rank ≤ a.band.rank)) :
    (insertBottom w ws).Pairwise (fun a b => b.band.rank ≤ a.band.rank) := by
  induction ws with
  | nil => simp [insertBottom]
  | cons x xs ih =>
    have hx := List.pairwise_cons.1 h
    simp only [insertBottom]
    split
    · rename_i hlt
      refine List.pairwise_cons.2 ⟨fun y hy => ?_, h⟩
      rcases List.mem_cons.1 hy with rfl | hy
      · omega
      · have := hx.1 y hy
        omega
    · rename_i hge
      refine List.pairwise_cons.2 ⟨fun y hy => ?_, ih hx.2⟩
      have hy' := (insertBottom_perm w xs).mem_iff.1 hy
      rcases List.mem_cons.1 hy' with rfl | hy'
      · omega
      · exact hx.1 y hy'

/-- Taking a window out leaves the others in their order. -/
theorem takeOut_sublist (h : Handle) (ws : List Window) : (takeOut h ws).Sublist ws := List.filter_sublist

/-! ## Commands and slices -/

/-- A command's end takes the head out of the queue and posts at most one record (R55 to R57). -/
theorem State.endCommand_records (s : State) (p : Port) (c : QCmd) (st : Status) (res : ResultPart) (cells : Nat) :
    State.RecordsOnly (s.setPort p ((s.port p).popHead st)) (s.endCommand p c st res cells) := by
  unfold State.endCommand
  split
  · exact .refl _
  · exact State.post_records _ _ _ _

/-- The arbiter does nothing, or it grants the engine to an eligible port while no slice is in flight (R49, R50). -/
theorem State.arbitrate_cases (s : State) :
    s.arbitrate = s ∨ (s.slice = none ∧ ∃ p, s.eligible p = true ∧
      ((s.urgentHead p = true ∧ ∃ run, s.arbitrate = s.grantUrgent p run) ∨ (s.urgentHead p = false ∧ s.arbitrate = s.grantNormal p))) := by
  cases hs : s.slice with
  | some q => exact .inl (by simp [State.arbitrate, hs])
  | none =>
    cases hu : s.urgentPick with
    | none =>
      cases hn : s.normalPick with
      | none => exact .inl (by simp [State.arbitrate, hs, hu, hn])
      | some n =>
        have h := List.find?_some hn
        simp only [Bool.and_eq_true, Bool.not_eq_true'] at h
        exact .inr ⟨rfl, n, h.1, .inr ⟨h.2, by simp [State.arbitrate, hs, hu, hn]⟩⟩
    | some p =>
      have h := List.find?_some hu
      simp only [Bool.and_eq_true] at h
      cases hn : s.normalPick with
      | none => exact .inr ⟨rfl, p, h.1, .inl ⟨h.2, 0, by simp [State.arbitrate, hs, hu, hn]⟩⟩
      | some n =>
        have h' := List.find?_some hn
        simp only [Bool.and_eq_true, Bool.not_eq_true'] at h'
        by_cases hr : s.urgentRun < Config.urgentLimit
        · exact .inr ⟨rfl, p, h.1, .inl ⟨h.2, _, by simp only [State.arbitrate, hs, hu, hn, hr, if_true]; rfl⟩⟩
        · exact .inr ⟨rfl, n, h'.1, .inr ⟨h'.2, by simp [State.arbitrate, hs, hu, hn, hr]⟩⟩

/-- The arbiter changes its own state and the slice in flight only. -/
theorem State.arbitrate_frame (s : State) :
    s.arbitrate = { s with slice := s.arbitrate.slice, urgentNext := s.arbitrate.urgentNext, normalNext := s.arbitrate.normalNext,
                           urgentRun := s.arbitrate.urgentRun } := by
  rcases s.arbitrate_cases with h | ⟨-, p, -, ⟨-, run, h⟩ | ⟨-, h⟩⟩ <;> rw [h] <;> rfl

/-- The arbiter leaves a waiting removal as it is. -/
@[simp] theorem State.arbitrate_waitingRemoval (s : State) : s.arbitrate.waitingRemoval = s.waitingRemoval := by
  rw [State.arbitrate_frame]

/-- A slice row runs the slice in flight of its port when its kind is that of the head, and changes nothing otherwise. -/
theorem State.runSlice_cases (s : State) (p : Port) (k : CommandKind) (work : QCmd → State → SliceEnd) :
    s.runSlice p k work = s ∨ ∃ c, HeadInFlight s p c ∧ c.kind = k
      ∧ s.runSlice p k work = finishSlice p c (if s.skips p c then .ended .skipped .none 0 s else work c s) := by
  unfold State.runSlice HeadInFlight
  split
  · rename_i hs
    split
    · exact .inl rfl
    · rename_i c rest hq
      split
      · rename_i hk
        exact .inr ⟨c, ⟨hs, by simp [hq]⟩, hk, rfl⟩
      · exact .inl rfl
  · exact .inl rfl

/-- The state after the ordinary end of a slice of port `p`'s head `c` (R51, R55): the command ends, goes on, or parks, and the
arbiter grants again. -/
def SliceEnd.plainly (p : Port) (c : QCmd) : SliceEnd → State
  | .ended st res cells s => s.concludes p c st res cells
  | .more pr s => ({ s with slice := none }.setPort p { s.port p with progress := pr }).arbitrate
  | .parked s => ({ s with slice := none }.setPort p
      { s.port p with progress := { (s.port p).progress with started := true }, waiter := true }).arbitrate

/-- With no removal waiting nothing is taken. -/
theorem State.takeWaitingRemoval_none {s : State} (h : s.waitingRemoval = none) : s.takeWaitingRemoval = s := by
  simp [State.takeWaitingRemoval, h]

/-- A waiting removal is taken by a step of its port's teardown, where that is under way, and waits no longer (R81). -/
theorem State.takeWaitingRemoval_cases (s : State) :
    (s.waitingRemoval = none ∧ s.takeWaitingRemoval = s)
      ∨ ∃ p, s.waitingRemoval = some p
        ∧ s.takeWaitingRemoval = if { s with waitingRemoval := none }.tearingDown p
            then { s with waitingRemoval := none }.teardownStep p else { s with waitingRemoval := none } := by
  unfold State.takeWaitingRemoval
  split
  · exact .inl ⟨‹_›, rfl⟩
  · exact .inr ⟨_, ‹_›, rfl⟩

/-- A slice ends in the ordinary way while its port is not CLOSING, no ABORT has marked it, and no removal waits for it (R51, R55,
R81). -/
theorem finishSlice_plain (p : Port) (c : QCmd) (e : SliceEnd) (hs : (e.state.port p).state ≠ .closing)
    (hm : (e.state.port p).stopMark = false) (hw : e.state.waitingRemoval = none) : finishSlice p c e = e.plainly p c := by
  have key : finishSlice p c e = (e.plainly p c).takeWaitingRemoval := by
    cases e <;> exact congrArg (fun s => (State.arbitrate s).takeWaitingRemoval)
      ((if_neg hs).trans (if_neg (by rw [Bool.not_eq_true]; exact hm)))
  rw [key, State.takeWaitingRemoval_none]
  cases e <;> exact (State.arbitrate_waitingRemoval _).trans (by first | exact hw | rw [(State.endCommand_records _ p c _ _ _).1]; exact hw)

/-- A slice that is served in the ordinary way runs its command's work. -/
theorem State.runSlice_serves (s : State) (p : Port) (k : CommandKind) (c : QCmd) (work : QCmd → State → SliceEnd)
    (h : Serves s p k c) : s.runSlice p k work = finishSlice p c (work c s) := by
  obtain ⟨⟨hs, hq⟩, hk, hc, -, -, -⟩ := h
  unfold State.runSlice
  cases hql : (s.port p).queue with
  | nil => simp [hql] at hq
  | cons x rest =>
    have hx : x = c := by simpa [hql] using hq
    subst hx
    have hsk : s.skips p x = false := by
      cases hb : s.skips p x with
      | false => rfl
      | true =>
        refine absurd ?_ hc
        simpa [State.skips, and_assoc] using hb
    simp [hs, hk, hsk]

/-- A slice served in the ordinary way whose work `e` leaves the port's state and stop mark and a waiting removal as they were. -/
theorem State.runSlice_plain {s : State} {p : Port} {k : CommandKind} {c : QCmd} {work : QCmd → State → SliceEnd} {e : SliceEnd}
    (h : Serves s p k c) (he : work c s = e) (hs : (e.state.port p).state = (s.port p).state)
    (hm : (e.state.port p).stopMark = (s.port p).stopMark) (hw : e.state.waitingRemoval = s.waitingRemoval) :
    s.runSlice p k work = e.plainly p c := by
  subst he
  rw [State.runSlice_serves s p k c work h]
  exact finishSlice_plain p c _ (hs ▸ h.2.2.2.2.1) (hm.trans h.2.2.2.1) (hw.trans h.2.2.2.2.2)

/-- A slice served in the ordinary way that ends its command at a check, or with no effect but a result part. -/
theorem State.runSlice_ended {s : State} {p : Port} {k : CommandKind} {c : QCmd} {work : QCmd → State → SliceEnd} {st : Status}
    {res : ResultPart} {cells : Nat} (h : Serves s p k c) (he : work c s = .ended st res cells s) :
    s.runSlice p k work = s.concludes p c st res cells :=
  State.runSlice_plain h he rfl rfl rfl

/-- A command that names the port's own window ends NO_WINDOW or NOT_OWNER at resolution, then BAD_ARG for its payload's length,
and else has its effect on the window (R20, R174). -/
theorem ownWindowAt_cases (s : State) (p : Port) (c : QCmd) (i n : Nat) (effect : Window → Effect) :
    (s.windowOf (handleAt c.payload i) = none ∧ ownWindowAt s p c i n effect = .error .noWindow)
      ∨ ∃ w, s.windowOf (handleAt c.payload i) = some w
        ∧ ((w.owner ≠ p ∧ ownWindowAt s p c i n effect = .error .notOwner)
          ∨ (w.owner = p ∧ c.payload.length ≠ n ∧ ownWindowAt s p c i n effect = .error .badArg)
          ∨ (w.owner = p ∧ c.payload.length = n ∧ ownWindowAt s p c i n effect = effect w)) := by
  simp only [ownWindowAt, State.resolveOwn]
  cases hw : s.windowOf (handleAt c.payload i) with
  | none => simp
  | some w => by_cases ho : w.owner = p <;> by_cases hn : c.payload.length = n <;> simp [ho, hn]

/-! ## Removal and teardown -/

/-- What a removal has done when exposure is about to be recomputed (R29): the window has left the table, its slot's generation
has risen, its strips retire, and the owner's holdings have fallen; focus `f` and capture `c` are as the removal leaves them. -/
def State.removed (s : State) (w : Window) (f : Option Handle) (c : Capture) : State :=
  { s with windows := takeOut w.handle s.windows, retiring := s.retiring ++ w.stripMap
           generations := (s.bumpGeneration w.handle.slot).generations, focus := f, capture := c }.setPort w.owner
    ((s.port w.owner).giveUp w.stripMap.length)

/-- A removal (R29): focus and capture let go of the window, records are posted, and exposure is recomputed. -/
theorem State.removeWindow_cases (s : State) (w : Window) :
    ∃ u c, ((∃ o, s.capture = .captured w.handle o) ∧ c = .orphan ∨ (∀ o, s.capture ≠ .captured w.handle o) ∧ c = s.capture)
      ∧ State.RecordsOnly (s.removed w (if s.focus = some w.handle then none else s.focus) c) u
      ∧ s.removeWindow w = u.recomputeExposure := by
  have h1 := State.withdrawFocus_records (s.removed w s.focus s.capture) w.handle w.owner .removed
  have hcap : ((s.removed w s.focus s.capture).withdrawFocus w.handle w.owner .removed).capture = s.capture := by rw [h1.1]; rfl
  have heq : s.removeWindow w = (((s.removed w s.focus s.capture).withdrawFocus w.handle w.owner .removed).cancelRemoved w.handle
      w.owner).recomputeExposure := rfl
  rcases State.cancelRemoved_cases ((s.removed w s.focus s.capture).withdrawFocus w.handle w.owner .removed) w.handle w.owner with
    ⟨o, ho, hr⟩ | ⟨ho, hr⟩
  · refine ⟨_, .orphan, .inl ⟨⟨o, hcap ▸ ho⟩, rfl⟩, ?_, heq⟩
    refine State.RecordsOnly.trans ?_ hr
    refine ⟨?_, h1.2⟩
    rw [h1.1]
    rfl
  · refine ⟨_, s.capture, .inr ⟨fun o e => ho o (hcap.trans e), rfl⟩, ?_, heq⟩
    rw [hr]
    exact h1

/-- A teardown's completion (R5, R118): with no window left the port becomes DETACHED and its bank blank, and nothing else
changes. -/
theorem State.completeTeardown_cases (s : State) (p : Port) :
    (s.topWindow p ≠ none ∧ s.completeTeardown p = s)
      ∨ (s.topWindow p = none
          ∧ s.completeTeardown p = s.setPort p { s.port p with state := .detached, bank := Vector.replicate 64 blankPattern }) := by
  unfold State.completeTeardown
  split
  · rename_i h; exact .inl ⟨by simp [h], rfl⟩
  · rename_i h; exact .inr ⟨h, rfl⟩

/-- A removal of a teardown waits exactly while the slice in flight is a copy's and its source operand names the port's topmost
window (R81). -/
theorem State.removalWaits_iff (s : State) (p : Port) :
    s.removalWaits p = true
      ↔ ∃ w q c, s.topWindow p = some w ∧ HeadInFlight s q c ∧ c.kind = .copyRect ∧ handleAt c.payload 0 = w.handle := by
  unfold State.removalWaits State.copyingFrom HeadInFlight
  cases ht : s.topWindow p with
  | none => simp
  | some w =>
    cases hs : s.slice with
    | none => simp
    | some q => cases hq : (s.port q).queue <;> simp [hq]

/-- A removal that comes is taken at once, or waits for a copy's slice (R81). -/
theorem State.comeRemoval_cases (s : State) (p : Port) :
    (s.removalWaits p = true ∧ s.comeRemoval p = { s with waitingRemoval := some p })
      ∨ (s.removalWaits p = false ∧ s.comeRemoval p = s.teardownStep p) := by
  unfold State.comeRemoval
  cases h : s.removalWaits p <;> simp

/-! ## Transactions (R166) -/

/-- A transaction is a SEND of the bytes after its lead byte, a FETCH that clocks as many bytes, or is ignored; nothing is taken
while the part is held in reset (R166, R178). -/
theorem State.transaction_cases (s : State) (p : Port) (bytes : List Byte) :
    (∃ rest, bytes = sendLead :: rest ∧ s.transaction p bytes = s.send p rest)
      ∨ (∃ rest, bytes = fetchLead :: rest ∧ s.transaction p bytes = s.fetch p (.whole rest.length))
      ∨ (bytes.head? ≠ some sendLead ∧ bytes.head? ≠ some fetchLead
          ∧ s.transaction p bytes = if s.device = .held then s else s.setPort p (s.port p).holdData) := by
  cases bytes with
  | nil => exact .inr (.inr ⟨by simp, by simp, rfl⟩)
  | cons lead rest =>
    by_cases h1 : lead = sendLead
    · subst h1
      exact .inl ⟨rest, rfl, by rw [State.transaction, if_pos rfl]⟩
    · by_cases h2 : lead = fetchLead
      · subst h2
        exact .inr (.inl ⟨rest, rfl, rfl⟩)
      · exact .inr (.inr ⟨by simpa using h1, by simpa using h2, by simp only [State.transaction, if_neg h1, if_neg h2]; rfl⟩)

end Sys2Proof.Machine
end

