-- ==== Sys2Proof/Tests/Slice0.lean ====
section
/-! SUPPORT. Tests/Slice0.lean: tests of the model on values from the manual, and for every statement with hypotheses a
theorem that shows operands and a state that meet them. -/

namespace Sys2Proof.Tests

-- One theorem is checked at a time: many kernel evaluations at once need more threads than the memory limit leaves room for.
set_option Elab.async false

open Sys2Proof Sys2Proof.Machine

/-! ## Well-formedness -/

/-- A payload above 512 bytes is refused (R168). -/
theorem test_wellFormed_long_payload :
    Instr.wellFormed (.commandAdmission 0 .writeText 0 1 (List.replicate 513 0)) = false := by decide +kernel

/-- A payload of 512 bytes is accepted (R167). -/
theorem test_wellFormed_longest_payload :
    Instr.wellFormed (.commandAdmission 0 .writeText 0 1 (List.replicate 512 0)) = true := by decide +kernel

/-- The lead bytes of a SEND and of a FETCH begin no ignored transaction (R166). -/
theorem test_wellFormed_lead_byte :
    Instr.wellFormed (.ignoredTransaction 0 [0x6E]) = false ∧ Instr.wellFormed (.ignoredTransaction 0 [0x9B, 0]) = false
      ∧ Instr.wellFormed (.ignoredTransaction 0 [0x6F]) = true ∧ Instr.wellFormed (.ignoredTransaction 0 []) = true := by
  decide +kernel

/-! ## Check bytes and numbers -/

/-- The check value of "123456789" that R167 gives. -/
theorem test_crc8_digits : crc8 [0x31, 0x32, 0x33, 0x34, 0x35, 0x36, 0x37, 0x38, 0x39] = 0xF4#8 := by decide +kernel

/-- The check value of "123456789" that R180 gives. -/
theorem test_crc16_digits : crc16 [0x31, 0x32, 0x33, 0x34, 0x35, 0x36, 0x37, 0x38, 0x39] = 0x29B1#16 := by decide +kernel

/-- With an 80 × 30 grid and identity calibration, raw (2048, 2048) maps to pixel (320, 240) (R135). -/
theorem test_touch_middle : mapTouch Profile.default_ 2048#12 2048#12 = ⟨320, 240⟩ := by decide +kernel

/-- The last raw value maps to the last pixel (R135). -/
theorem test_touch_corner : mapTouch Profile.default_ 4095#12 4095#12 = ⟨639, 479⟩ := by decide +kernel

/-! ## States for tests -/

/-- A device that is READY with the default profile, and no session. -/
def ready : State := { State.reset with device := .ready, profile := some Profile.default_ }

/-- A window of port 0: 4 × 2 cells at (0, 0), shown and key eligible, with a grant for port 1. -/
def demo : Window where
  handle      := ⟨1, 0⟩
  owner       := 0
  band        := .base
  shown       := true
  view        := ⟨0, 0, 4, 2⟩
  sc          := 4
  sr          := 2
  offCol      := 0
  offRow      := 0
  stripMap    := [0, 1]
  curCol      := 0
  curRow      := 0
  pen         := ⟨0, 15, 0, false, false⟩
  clear       := ⟨32, 7, 1, false, false⟩
  wrap        := true
  autoscroll  := true
  cursorShown := false
  touchMode   := .take
  keyEligible := true
  lapsePolicy := .keep
  grants      := [1]
  exposure    := .full
  visible     := 8

/-- A port with a fresh session. -/
def session : PortRec := { PortRec.reset with state := .live, epoch := 1, lease := 2000 }

/-- Ports 0 and 1 LIVE, port 0 with one window `w` of two strips. -/
def withWindow (w : Window) : State :=
  ({ ready with windows := [w], available := (List.range 1024).drop 2 }.setPort 0
    { session with windowsHeld := 1, stripsHeld := 2 }).setPort 1 session

/-- Ports 0 and 1 LIVE, port 0 with its demonstration window. -/
def base : State := withWindow demo

/-- A command of a kind with a payload, tag 1, REPORT set. -/
def command (k : CommandKind) (payload : List Byte) : QCmd := ⟨k, 1, true, false, false, payload⟩

/-- A state in which port 0's slice in flight serves a command. -/
def serving (s : State) (k : CommandKind) (payload : List Byte) : State :=
  { s.setPort 0 { s.port 0 with queue := [command k payload] } with slice := some 0 }

/-- Port 0's slice serves the command on its demonstration window. -/
abbrev Acts (s : State) (k : CommandKind) (payload : List Byte) (w : Window) : Prop :=
  Serves (serving s k payload) 0 k (command k payload) ∧ NamesOwn (serving s k payload) 0 (command k payload) w

/-- Port 1's slice serves a command. -/
def serving1 (s : State) (k : CommandKind) (payload : List Byte) : State :=
  { s.setPort 1 { s.port 1 with queue := [command k payload] } with slice := some 1 }

/-- What exec leaves of a state, the state itself where it leaves none. -/
def after (i : Instr) (s : State) : State :=
  match exec i s with
  | .next t => t
  | _ => s

/-- The bytes of a SEND after its lead byte. -/
def sent (kind flags tag : Byte) (payload : List Byte) : List Byte :=
  frameBytes kind flags tag payload ++ [crc8 (frameBytes kind flags tag payload)]

/-- The marker, version, length and body of an image of the default profile with a number of grid columns, but for its palette. -/
def bodyOf (cols : Byte) : List Byte :=
  [0x56, 0x53, 1] ++ be16 132
    ++ [cols, 30] ++ List.replicate 48 0 ++ [0, 0, 0xF0] ++ [177, 0, 0xF1] ++ [70, 90, 1] ++ be16 0 ++ be16 0
    ++ be16 1024 ++ be16 1024 ++ [4] ++ List.replicate 8 0 ++ List.replicate 8 1 ++ [50, 10]
    ++ (List.replicate 4 ([1, 1, 6] ++ be16 256 ++ [0, 20, 10])).flatten ++ List.replicate 14 0

/-- The body with two bytes as its CRC. -/
def image (cols : Byte) (crc : Nat) : List Byte := bodyOf cols ++ be16 crc

/-! ## Start-up -/

theorem witness_EmptyQueueGoesOnByItself :
    (ready.pending = [] ∧ ready.device = .ready ∧ ready.slice = none ∧ State.reset.device ≠ .ready ∧ State.reset.slice = none)
      ∧ (State.reset.pending = [] ∧ (after .deviceReset State.reset).pending = [] ∧ (after .deviceReset State.reset).device = .held)
      ∧ (base.pending = [] ∧ base.device ≠ .held ∧ base.slice = none)
      ∧ ((serving base .setPen []).pending = [] ∧ (serving base .setPen []).device ≠ .held
        ∧ HeadInFlight (serving base .setPen []) 0 (command .setPen [])) := by decide +kernel

theorem witness_ProfileLoadMakesTheDeviceReady :
    State.reset.device = .starting ∧ State.reset.windows = [] ∧ State.reset.slice = none ∧ State.reset.sampler = .reset
      ∧ (∀ p, (State.reset.port p).state = .detached ∧ (State.reset.port p).waiter = false) := by decide +kernel

/-- What an image reads as, whatever its CRC. -/
theorem image_reads (cols : Byte) (n : Nat) (h : n < 65536) :
    (image cols n).length = 139 ∧ (image cols n).take 2 = [0x56#8, 0x53#8] ∧ byteAt (image cols n) 2 = 1
      ∧ wordAt (image cols n) 3 = 132 ∧ (image cols n).take 137 = bodyOf cols
      ∧ ((image cols n).drop 5).take 132 = (bodyOf cols).drop 5 ∧ wordAt (image cols n) 137 = n
      ∧ byteAt (image cols n) 5 = cols.toNat := by
  have hl : (bodyOf cols).length = 137 := by simp [bodyOf, be16]
  have h2 : (bodyOf cols).take 2 = [0x56#8, 0x53#8] := by simp [bodyOf]
  have h3 : (bodyOf cols).getD 2 0 = 1#8 ∧ (bodyOf cols).getD 3 0 = 0#8 ∧ (bodyOf cols).getD 4 0 = 132#8
      ∧ (bodyOf cols).getD 5 0 = cols := by
    simp [bodyOf, be16]
  have hd : ((bodyOf cols).drop 5).length = 132 := by simp [hl]
  have h5 : (image cols n).drop 5 = (bodyOf cols).drop 5 ++ be16 n := List.drop_append_of_le_length (by omega)
  have hg : ∀ i, i < 137 → (image cols n).getD i 0 = (bodyOf cols).getD i 0 := fun i hi => by
    simp [image, List.getElem?_append_left (hl ▸ hi)]
  have hc : (image cols n).getD 137 0 = BitVec.ofNat 8 (n / 256) ∧ (image cols n).getD 138 0 = BitVec.ofNat 8 n := by
    simp [image, be16, hl]
  refine ⟨by simp [image, be16, hl], ?_, ?_, ?_, ?_, ?_, ?_, ?_⟩
  · rw [image, List.take_append_of_le_length (by omega), h2]
  · rw [byteAt, hg 2 (by omega), h3.1]; rfl
  · rw [wordAt, byteAt, byteAt, hg 3 (by omega), hg 4 (by omega), h3.2.1, h3.2.2.1]; rfl
  · exact List.take_left' hl
  · rw [h5]; exact List.take_left' hd
  · simp only [wordAt, byteAt, hc, BitVec.toNat_ofNat]
    omega
  · rw [byteAt, hg 5 (by omega), h3.2.2.2]

/-- An image with its right CRC is loaded when its body is in range. -/
theorem image_loads (cols : Byte) (p : Profile) (hp : parseBody ((bodyOf cols).drop 5) = some p) :
    judgeImage (some (image cols (crc16 (bodyOf cols)).toNat)) = .ok p := by
  obtain ⟨h1, h2, h3, h4, h5, h6, h7, -⟩ := image_reads cols (crc16 (bodyOf cols)).toNat (crc16 (bodyOf cols)).isLt
  simp [judgeImage, h1, h2, h3, h4, h5, h6, h7, hp]

/-- Images for the clauses: one that does not answer, one of another version, one that ends before its CRC, one with a wrong CRC, one
with 39 grid columns and the right CRC, and one that is loaded. -/
theorem witness_LoadedProfileIsInRange :
    ([] : List Byte).take 2 ≠ [0x56#8, 0x53#8] ∧ byteAt [0x56#8, 0x53#8, 2#8] 2 ≠ 1
      ∧ (let short := [0x56#8, 0x53#8, 1#8, 0#8, 132#8]
        short.take 2 = [0x56#8, 0x53#8] ∧ byteAt short 2 = 1 ∧ wordAt short 3 = 132 ∧ short.length < 139)
      ∧ (∃ bad : List Byte, bad.take 2 = [0x56#8, 0x53#8] ∧ byteAt bad 2 = 1 ∧ wordAt bad 3 = 132 ∧ 139 ≤ bad.length
        ∧ wordAt bad 137 ≠ (crc16 (bad.take 137)).toNat)
      ∧ (∃ far : List Byte, far.take 2 = [0x56#8, 0x53#8] ∧ byteAt far 2 = 1 ∧ wordAt far 3 = 132 ∧ 139 ≤ far.length
        ∧ wordAt far 137 = (crc16 (far.take 137)).toNat ∧ ¬ 40 ≤ byteAt far 5)
      ∧ ∃ good p, judgeImage (some good) = .ok p := by
  refine ⟨by decide, by decide, by decide +kernel, ?_, ?_, ?_⟩
  · obtain ⟨h1, h2, h3, h4, h5, -, h7, -⟩ := image_reads 80 (((crc16 (bodyOf 80)).toNat + 1) % 65536) (by omega)
    refine ⟨_, h2, h3, h4, by omega, ?_⟩
    rw [h5, h7]
    have := (crc16 (bodyOf 80)).isLt
    omega
  · obtain ⟨h1, h2, h3, h4, h5, -, h7, h8⟩ := image_reads 39 (crc16 (bodyOf 39)).toNat (crc16 (bodyOf 39)).isLt
    exact ⟨_, h2, h3, h4, by omega, by rw [h5, h7], by rw [h8]; decide⟩
  · have h : (parseBody ((bodyOf 80).drop 5)).isSome = true := by decide +kernel
    obtain ⟨p, hp⟩ := Option.isSome_iff_exists.1 h
    exact ⟨_, p, image_loads 80 p hp⟩

/-! ## Host links -/

theorem witness_FramesAreRefusedByDeviceAndPortState :
    State.reset.device = .starting ∧ ready.device = .ready ∧ (ready.port 0).state = .detached ∧ (base.port 0).state = .live
      ∧ ((ready.setPort 0 { PortRec.reset with state := .disabled }).port 0).state = .disabled
      ∧ ((ready.setPort 0 { PortRec.reset with state := .lapsed }).port 0).state = .lapsed
      ∧ ((ready.setPort 0 { PortRec.reset with state := .closing }).port 0).state = .closing := by decide +kernel

/-- A SEND for each clause, at the lengths where the clauses meet. -/
theorem witness_TransactionsAreJudgedByTheirBytes :
    base.device ≠ .held ∧ ([1, 0, 1, 0] : List Byte).length < 5
      ∧ (5 ≤ ([1, 0, 1, 2, 1] : List Byte).length ∧ 512 < wordAt [1, 0, 1, 2, 1] 3)
      ∧ (5 ≤ ([1, 0, 1, 2, 0] : List Byte).length ∧ wordAt [1, 0, 1, 2, 0] 3 ≤ 512)
      ∧ (let bytes : List Byte := [1, 0, 1, 0, 0, 0]
        6 + wordAt bytes 3 ≤ bytes.length ∧ bytes.getD 5 0 ≠ crc8 (bytes.take 5))
      ∧ (let bytes := sent 0x7F 0 1 []
        6 + wordAt bytes 3 ≤ bytes.length ∧ bytes.getD 5 0 = crc8 (bytes.take 5) ∧ frameKindOf (byteAt bytes 0) = none)
      ∧ (judgeSend (sent 1 0 9 []) = .frame .attach 0 9 [] ∧ judgeSend (sent 2 0 9 []) = .frame .detach 0 9 []
        ∧ judgeSend (sent 3 0 9 []) = .frame .renew 0 9 [] ∧ judgeSend (sent 4 0 9 []) = .frame .readEvents 0 9 []
        ∧ judgeSend (sent 5 0 9 []) = .frame .status 0 9 [] ∧ judgeSend (sent 6 0 9 []) = .frame .abort 0 9 [])
      ∧ judgeSend (sent (byte (kindCode .queryWindow)) 1 9 [1, 0]) = .frame (.queued .queryWindow) 1 9 [1, 0]
      ∧ (∀ bytes ∈ ([[], [0x6F], [0x9A, 1]] : List (List Byte)), bytes.head? ≠ some 0x6E#8 ∧ bytes.head? ≠ some 0x9B#8) := by
  decide +kernel

/-- The first and the last link request, and a queued command, with the longest payload. -/
theorem witness_FramesReadBackAsBuilt :
    (List.replicate 512 (0 : Byte)).length ≤ 512
      ∧ (1#8, FrameKind.attach) ∈ [(1#8, FrameKind.attach), (2#8, .detach), (3#8, .renew), (4#8, .readEvents), (5#8, .status), (6#8, .abort)]
      ∧ (6#8, FrameKind.abort) ∈ [(1#8, FrameKind.attach), (2#8, .detach), (3#8, .renew), (4#8, .readEvents), (5#8, .status), (6#8, .abort)]
      ∧ ∃ k, 0x45#8 = byte (kindCode k) ∧ FrameKind.queued .frameMark = .queued k := by
  and_intros <;> first | exact ⟨.frameMark, by decide +kernel, rfl⟩ | decide +kernel

/-! ## Sessions -/

/-- Port 0 with a session whose record is changed. -/
def base0 (f : PortRec → PortRec) : State := base.setPort 0 (f (base.port 0))

/-- The default profile with a grace period of 0 for every port. -/
def noGrace : Profile := { Profile.default_ with ports := Vector.replicate 4 { PortProfile.default_ with gracePeriod := 0 } }

theorem witness_AttachAndRenewRunTheSession :
    ready.device = .ready ∧ (ready.port 0).state = .detached ∧ (base.port 0).state = .live
      ∧ ((base0 (fun q => { q with state := .lapsed })).port 0).state = .lapsed := by decide +kernel

theorem witness_DetachAndExpiryCloseThePort :
    base.device = .ready ∧ (base.port 0).state = .live
      ∧ (let s := base0 (fun q => { q with state := .lapsed, lease := 0, grace := 0 });
        (s.port 0).state = .lapsed ∧ (s.port 0).grace = 0)
      ∧ (let s := { base0 (fun q => { q with lease := 0 }) with profile := some noGrace };
        (s.port 0).state = .live ∧ (s.port 0).lease = 0 ∧ (s.portProf 0).gracePeriod = 0)
      ∧ (KeyRec.reset.capture = none
        ∧ KeyRec.dropPort 2 ⟨true, 0, none, some ⟨[1, 2, 3], none⟩⟩ = ⟨true, 0, none, some ⟨[1, 3], none⟩⟩) := by decide +kernel

theorem witness_LeaseExpiryLapsesThePort :
    let s := base0 (fun q => { q with lease := 0 });
    (s.port 0).state = .live ∧ (s.port 0).lease = 0 ∧ 0 < (s.portProf 0).gracePeriod ∧ (s.port 0).events = [] := by
  decide +kernel

theorem witness_LeaseWarningIsPostedOnce :
    (let s := base0 (fun q => { q with lease := 1000 });
      (s.port 0).state = .live ∧ (s.port 0).warned = false ∧ 2 * (s.port 0).lease = (s.portProf 0).leasePeriod)
      ∧ ((base0 (fun q => { q with warned := true })).port 0).warned = true ∧ (ready.port 0).state ≠ .live
      ∧ 2 * ((base0 (fun q => { q with lease := 999 })).port 0).lease ≠ (base.portProf 0).leasePeriod
      ∧ ((base.port 0).lease ≠ 0 ∧ (base.port 0).state ≠ .lapsed) := by decide +kernel

/-- A record that no one has fetched. -/
def record (body : EventBody) : Record := ⟨body, 0, some ⟨1, 0⟩, false⟩

/-- A dropped record, one with the last open place, a move that folds, and records that are lost. -/
theorem witness_PostedRecordsJoinCoalesceOrAreLost :
    ((ready.port 0).state ≠ .live ∧ (ready.port 0).state ≠ .lapsed) ∧ (base.port 0).state = .live
      ∧ (let es := List.replicate 13 (record .focusGained)
        es.length < 16 ∧ (es.filter (fun e => !e.body.isFailed)).length < 14)
      ∧ (let es := List.replicate 13 (record .focusGained) ++ [record (.touchMove ⟨1, 1⟩)]
        ¬ (es.filter (fun e => !e.body.isFailed)).length < 14)
      ∧ ¬ (List.replicate 16 (record .focusGained)).length < 16 := by decide +kernel

theorem witness_ReadEventsHoldsTheOldestRecords : base.device = .ready ∧ (base.port 0).state = .live := by decide +kernel

theorem witness_FetchConsumesACompleteReply :
    let r : Reply := ⟨.ack, 1, .none⟩
    base.device ≠ .held ∧ ((base0 (fun q => { q with reply := some r })).port 0).reply = some r ∧ r.bytes.length ≤ 5
      ∧ 4 < r.bytes.length ∧ (base.port 0).reply = none ∧ base.device = .ready ∧ (base.port 0).state = .live
      ∧ (let s := base0 (fun q => { q with reply := some r, state := .lapsed, lease := 0, grace := 0 });
        (s.port 0).reply = some r ∧ (s.port 0).state = .lapsed ∧ (s.port 0).grace = 0)
      ∧ (let s := { base0 (fun q => { q with reply := some r, lease := 0 }) with profile := some noGrace };
        (s.port 0).reply = some r ∧ (s.port 0).state = .live ∧ (s.port 0).lease = 0 ∧ (s.portProf 0).gracePeriod = 0) := by
  decide +kernel

/-! ## The command engine -/

theorem witness_AdmissionQueuesWhatFits :
    base.device = .ready ∧ (base.port 0).state = .live ∧ (List.replicate 512 (0 : Byte)).length ≤ 512
      ∧ (base.port 0).duplicate ≠ some (1, 2)
      ∧ ((base0 (fun q => { q with duplicate := some (1, 2) })).port 0).duplicate = some (1, 2)
      ∧ 8 ≤ (List.replicate 8 (command .setPen [])).length ∧ (List.replicate 7 (command .setPen [])).length < 8
      ∧ ((List.replicate 4 (command .setPen (List.replicate 128 0))).map (fun c => c.payload.length)).sum + 512 ≤ 1024
      ∧ 1024 < ((List.replicate 4 (command .setPen (List.replicate 128 0))).map (fun c => c.payload.length)).sum + 513 := by
  decide +kernel

theorem witness_AbortStopsThePortsCommands :
    let q := { session with queue := [command .frameMark []] };
    (base.device = .ready ∧ (base.port 0).state = .live ∧ base.headState 0 = .empty)
      ∧ (base.setPort 0 q).headState 0 = .waiting ∧ (serving base .frameMark []).headState 0 = .inFlight
      ∧ (base.setPort 0 { q with waiter := true }).headState 0 = .parked
      ∧ (base.setPort 0 { q with progress := { Progress.fresh with started := true } }).headState 0 = .inProgress := by
  decide +kernel

theorem witness_ChainSkipsAndStrayRowsDoNoWork :
    (let c := { command .setPen [] with chain := true }
      let s := { base0 (fun q => { q with queue := [c], chain := .failed }) with slice := some 0 }
      HeadInFlight s 0 c ∧ c.kind = .setPen ∧ ChainSkips s 0 c ∧ (s.port 0).stopMark = false ∧ (s.port 0).state ≠ .closing
        ∧ s.waitingRemoval = none)
      ∧ base.slice ≠ some 0 := by decide +kernel

theorem witness_StoppedSlicesEndAbortedOrSilently :
    let marked := { base0 (fun q => { q with queue := [command .setPen []], stopMark := true }) with slice := some 0 }
    let closing := { base0 (fun q => { q with queue := [command .setPen []], state := .closing }) with slice := some 0 };
    (HeadInFlight marked 0 (command .setPen []) ∧ (marked.port 0).stopMark = true ∧ (marked.port 0).state ≠ .closing
        ∧ marked.waitingRemoval = none ∧ closing.waitingRemoval = none)
      ∧ HeadInFlight closing 0 (command .setPen []) ∧ (closing.port 0).state = .closing := by decide +kernel

/-- A state whose ports 0 and 1 wait with URGENT heads, where `urgent` says so, and with an urgent run counter. -/
def waitingPorts (u0 u1 : Bool) (run : Nat) : State :=
  { ({ base with profile := some { Profile.default_ with
        ports := Vector.replicate 4 { PortProfile.default_ with urgentPermitted := true } } }.setPort 0
      { session with queue := [{ command .setPen [] with urgent := u0 }] }).setPort 1
      { session with queue := [{ command .setPen [] with urgent := u1 }] } with urgentRun := run }

theorem witness_ArbiterGrantsByClassAndTurn :
    (serving base .setPen []).slice ≠ none ∧ (∀ p, base.eligible p = false)
      ∧ (∀ b, (waitingPorts true b 0).slice = none ∧ (waitingPorts true b 0).eligible 0 = true
        ∧ (waitingPorts true b 0).urgentHead 0 = true ∧ (waitingPorts true b 0).urgentHead 1 = b)
      ∧ ((waitingPorts true false 7).urgentRun < 8 ∧ 8 ≤ (waitingPorts true false 8).urgentRun)
      ∧ (∀ p, (waitingPorts false false 0).urgentHead p = false) ∧ (waitingPorts false false 0).eligible 0 = true
      ∧ ((waitingPorts false false 0).setPort 0 { (waitingPorts false false 0).port 0 with state := .lapsed }).eligible 0 = false := by
  decide +kernel

/-- The commands that name the port's own window. -/
def ownKinds : List CommandKind :=
  [.destroyWindow, .placeWindow, .showWindow, .hideWindow, .raiseWindow, .lowerWindow, .setBand, .setWindowModes, .grantRead,
    .revokeRead, .setPen, .setCursor, .writeText, .putCells, .fillRect, .copyRect, .shiftRect, .requestFocus]

theorem witness_HandlesAreResolvedFirst :
    (∀ k ∈ ownKinds, Serves (serving base k [9, 9, 0, 0, 1, 1, 9, 9]) 0 k (command k [9, 9, 0, 0, 1, 1, 9, 9]))
      ∧ base.windowOf ⟨9, 9⟩ = none
      ∧ (∀ k ∈ ownKinds, Serves (serving1 base k [1, 0, 0, 0, 1, 1, 1, 0]) 1 k (command k [1, 0, 0, 0, 1, 1, 1, 0]))
      ∧ ((serving1 base .setPen []).windowOf ⟨1, 0⟩ = some demo ∧ demo.owner ≠ 1)
      ∧ (Serves (serving base .setWindowModes [1, 0, 9]) 0 .setWindowModes (command .setWindowModes [1, 0, 9])
        ∧ handleAt [1, 0, 9] 1 = ⟨0, 9⟩ ∧ base.windowOf ⟨0, 9⟩ = none)
      ∧ (Serves (serving1 base .setWindowModes [1, 1, 0, 1]) 1 .setWindowModes (command .setWindowModes [1, 1, 0, 1])
        ∧ handleAt [1, 1, 0, 1] 1 = demo.handle)
      ∧ (Serves (serving base .queryWindow [9, 9]) 0 .queryWindow (command .queryWindow [9, 9])
        ∧ Serves (serving base .readCells [9, 9]) 0 .readCells (command .readCells [9, 9]))
      ∧ (let s := serving1 (withWindow { demo with grants := [] }) .readCells [1, 0]
        Serves s 1 .readCells (command .readCells [1, 0])
          ∧ s.windowOf ⟨1, 0⟩ = some { demo with grants := [] } ∧ (1 : Port) ∉ ({ demo with grants := [] } : Window).grants) := by
  and_intros <;> decide +kernel

/-! ## Windows -/

/-- Port 0's slice serves a command on the demonstration window, whatever the payload after the handle. -/
abbrev ActsOnDemo (k : CommandKind) (payload : List Byte) : Prop := Acts base k payload demo

/-- The operands of a CREATE_WINDOW: a 4 × 2 window of a band at (8, 0), with a cleared surface. -/
def createPayload (band : Byte) : List Byte := [band, 4, 2, 8, 0, 4, 2, 0, 0, 32, 0, 0x71]

theorem witness_CreateWindowChecksInOrder :
    let s := serving base .createWindow (createPayload 0);
    Serves s 0 .createWindow (command .createWindow (createPayload 0))
      ∧ createOperands (createPayload 3) = none
      ∧ (createOperands (createPayload 2)).map (fun o => decide ((s.portProf 0).maxBand.rank < o.band.rank)) = some true
      ∧ (createOperands (createPayload 1)).map (fun o => decide (o.band.rank ≤ (s.portProf 0).maxBand.rank)) = some true
      ∧ (createOperands (createPayload 0)).map (fun o => geometryOk s.prof o.sc o.sr o.view o.offCol o.offRow) = some true
      ∧ (createOperands ((createPayload 0).set 3 77)).map (fun o => geometryOk s.prof o.sc o.sr o.view o.offCol o.offRow)
        = some false
      ∧ ((s.port 0).windowsHeld + 1 ≤ (s.portProf 0).windowQuota ∧ ¬ 6 + 1 ≤ (s.portProf 0).windowQuota)
      ∧ ((s.port 0).stripsHeld + 254 ≤ (s.portProf 0).stripQuota ∧ (s.portProf 0).stripQuota < (s.port 0).stripsHeld + 255)
      ∧ (stripsOf 4 2 ≤ s.available.length ∧ ([5] : List Nat).length < stripsOf 4 2) := by decide +kernel

/-- With windows in all 24 slots no slot is free, and with 23 of them one is. -/
theorem witness_CreateWindowChecksInOrder_slots :
    let full := (List.range 24).map (fun k => { demo with handle := ⟨k + 1, 0⟩ });
    (∀ k ∈ List.range' 1 24, full.any (fun w => w.handle.slot == k)) ∧ ∀ w ∈ full.tail, w.handle.slot ≠ 1 := by
  decide +kernel

theorem witness_CreateWindowMakesTheWindow :
    let s := serving base .createWindow (createPayload 0);
    Serves s 0 .createWindow (command .createWindow (createPayload 0))
      ∧ (createOperands (createPayload 0)).map (fun o => decide (o.band.rank ≤ (s.portProf 0).maxBand.rank
        ∧ geometryOk s.prof o.sc o.sr o.view o.offCol o.offRow = true
        ∧ (s.port 0).stripsHeld + stripsOf o.sc o.sr ≤ (s.portProf 0).stripQuota
        ∧ stripsOf o.sc o.sr ≤ s.available.length)) = some true
      ∧ (s.port 0).windowsHeld + 1 ≤ (s.portProf 0).windowQuota
      ∧ ((∀ w ∈ s.windows, w.handle.slot ≠ 2) ∧ ∀ k, k < 2 → 1 ≤ k → ∃ w ∈ s.windows, w.handle.slot = k)
      ∧ s.StripsCanonical ∧ s.BandsInOrder := by decide +kernel

/-- Port 0 CLOSING with its window, from which a slice of port 1's copy may be in flight. -/
def copiedFrom (slice : Option Port) : State :=
  { (base0 (fun q => { q with state := .closing })).setPort 1
    { session with queue := [command .copyRect [1, 0, 0, 0, 1, 1, 2, 0, 0, 0]] } with slice := slice }

/-- A removal that is taken, one that waits for the slice of a copy, and one without a teardown. -/
theorem witness_RemovalTakesTheWindowAway :
    (ActsOnDemo .destroyWindow [1, 0] ∧ 1 ≤ demo.handle.slot ∧ demo.handle.slot ≤ 24 ∧ ActsOnDemo .destroyWindow [1, 0, 0])
      ∧ (let s := base0 (fun q => { q with state := .closing });
        (s.port 0).state = .closing ∧ s.slice ≠ some 0 ∧ s.windows.find? (fun x => x.owner == 0) = some demo ∧ s.slice = none)
      ∧ (let s := copiedFrom (some 1)
        (s.port 0).state = .closing ∧ s.slice ≠ some 0 ∧ s.windows.find? (fun x => x.owner == 0) = some demo
          ∧ HeadInFlight s 1 (command .copyRect [1, 0, 0, 0, 1, 1, 2, 0, 0, 0])
          ∧ handleAt [1, 0, 0, 0, 1, 1, 2, 0, 0, 0] 0 = demo.handle)
      ∧ (let s := { copiedFrom (some 1) with waitingRemoval := some 0 }
        HeadInFlight s 1 (command .copyRect [1, 0, 0, 0, 1, 1, 2, 0, 0, 0]) ∧ s.waitingRemoval = some 0
          ∧ ((after (.copyRect 1) { s with waitingRemoval := none }).port 0).state = .closing)
      ∧ (base.port 0).state ≠ .closing := by decide +kernel

/-- A placement at the right edge of the screen is inside it, and one column further is not. -/
theorem witness_PlaceShowAndHideChangeTheirFields :
    ActsOnDemo .placeWindow [1, 0, 76, 28, 4, 2, 0, 0] ∧ onScreen base.prof ⟨76, 28, 4, 2⟩ = true
      ∧ onScreen base.prof ⟨77, 28, 4, 2⟩ = false ∧ (1 ≤ demo.sc ∧ demo.sc ≤ 128 ∧ 1 ≤ demo.sr ∧ demo.sr ≤ 64)
      ∧ ActsOnDemo .placeWindow [1, 0] ∧ ActsOnDemo .showWindow [1, 0] ∧ ActsOnDemo .showWindow [1, 0, 0]
      ∧ ActsOnDemo .hideWindow [1, 0] ∧ ActsOnDemo .hideWindow [1, 0, 0] := by and_intros <;> decide +kernel

theorem witness_StackMovesKeepTheOthersInOrder :
    ActsOnDemo .raiseWindow [1, 0] ∧ ActsOnDemo .lowerWindow [1, 0] ∧ ActsOnDemo .setBand [1, 0, 1] ∧ base.BandsInOrder
      ∧ (bandOf 1 = some .alert ∧ bandOf 2 = some .critical ∧ bandOf 3 = none ∧ (base.portProf 0).maxBand = .alert)
      ∧ ActsOnDemo .setBand [1, 0, 2] ∧ ActsOnDemo .setBand [1, 0, 3] ∧ ActsOnDemo .raiseWindow [1, 0, 0]
      ∧ ActsOnDemo .lowerWindow [1, 0, 0] := by and_intros <;> decide +kernel

theorem witness_SetWindowModesChangesPresentFields :
    (∀ pl ∈ [[0x18, 1, 0, 2, 0], [0x18, 1, 0, 3, 0]], let s := serving base .setWindowModes pl;
        Serves s 0 .setWindowModes (command .setWindowModes pl) ∧ s.windowOf (handleAt pl 1) = some demo ∧ demo.owner = 0)
      ∧ modeOperands [0x18, 1, 0, 2, 0] = some ⟨none, none, none, some .pass, some false, none, none⟩
      ∧ modeOperands [0x18, 1, 0, 3, 0] = none := by decide +kernel

theorem witness_GrantsAndQueries :
    ActsOnDemo .grantRead [1, 0, 1] ∧ ActsOnDemo .grantRead [1, 0] ∧ ActsOnDemo .grantRead [1, 0, 4] ∧ ActsOnDemo .grantRead [1, 0, 0]
      ∧ Acts (withWindow { demo with grants := [] }) .grantRead [1, 0, 1] { demo with grants := [] }
      ∧ ((base.port 1).state = .live ∧ (1 : Port) ∈ demo.grants ∧ (1 : Port) ∉ ([] : List Port) ∧ (base.port 2).state ≠ .live)
      ∧ ActsOnDemo .revokeRead [1, 0, 3] ∧ ActsOnDemo .revokeRead [1, 0, 4]
      ∧ (let s := serving1 base .queryWindow [1, 0];
        Serves s 1 .queryWindow (command .queryWindow [1, 0]) ∧ NamesReadable s 1 (command .queryWindow [1, 0]) demo)
      ∧ (let s := serving1 base .queryWindow [1, 0, 0];
        Serves s 1 .queryWindow (command .queryWindow [1, 0, 0]) ∧ NamesReadable s 1 (command .queryWindow [1, 0, 0]) demo) := by
  and_intros <;> decide +kernel

/-! ## Drawing -/

theorem witness_OneSliceDrawingCommands :
    (ActsOnDemo .setPen [1, 0, 0x3F, 1, 0xF0] ∧ (cellAt [1, 0, 0x3F, 1, 0xF0] 2).glyph = 319
        ∧ ActsOnDemo .setPen [1, 0, 0x40, 1, 0xF0] ∧ (cellAt [1, 0, 0x40, 1, 0xF0] 2).glyph = 320)
      ∧ (ActsOnDemo .setCursor [1, 0, 3, 1] ∧ ActsOnDemo .setCursor [1, 0, 4, 1] ∧ ActsOnDemo .setCursor [1, 0])
      ∧ (∀ n ∈ ([0, 1, 4, 5, 16, 17] : List Byte), Serves (serving base .readCells [1, 0, 0, 1, n]) 0 .readCells
          (command .readCells [1, 0, 0, 1, n]) ∧ NamesReadable (serving base .readCells [1, 0, 0, 1, n]) 0
          (command .readCells [1, 0, 0, 1, n]) demo)
      ∧ (let loads (first n : Byte) (k : Nat) : List Byte := [first, n] ++ List.replicate k 0;
        ∀ pl ∈ [loads 63 1 16, loads 48 16 256, loads 49 16 256, loads 64 1 16, loads 0 0 0, loads 0 17 272],
          Serves (serving base .loadGlyphs pl) 0 .loadGlyphs (command .loadGlyphs pl)) := by and_intros <;> decide +kernel

/-- A window of 64 × 2 cells, whose rectangle of 128 cells takes two slices. -/
def wide : Window := { demo with sc := 64, view := ⟨0, 0, 64, 2⟩, stripMap := [0, 1, 2, 3, 4, 5, 6, 7], visible := 128 }

/-- Port 0 with the wide window. -/
def wideBase : State :=
  { (withWindow wide).setPort 0 { session with windowsHeld := 1, stripsHeld := 8 } with available := (List.range 1024).drop 8 }

/-- The pool of a state whose one window holds the first strips, in the order the invariant lists it. -/
theorem pool_perm (n : Nat) (h : n ≤ 1024) :
    ((List.range 1024).drop n ++ [] ++ [List.range n].flatten).Perm (List.range Config.strips) := by
  have e : (List.range 1024).take n = List.range n := by
    simp [List.take_range, h]
  have := List.take_append_drop n (List.range 1024)
  rw [e] at this
  have p := List.perm_append_comm (l₁ := (List.range 1024).drop n) (l₂ := List.range n)
  rw [this] at p
  simpa [Config.strips] using p

/-- The invariant of the window table in a state whose queue, slice or progress alone differ from the wide window's. -/
theorem table_wide (s : State) (hw : s.windows = [wide]) (hg : s.generations = wideBase.generations)
    (ha : s.available = (List.range 1024).drop 8) (hr : s.retiring = [])
    (hh : ∀ p, (s.port p).windowsHeld = (wideBase.port p).windowsHeld ∧ (s.port p).stripsHeld = (wideBase.port p).stripsHeld) :
    s.TableAgrees := by
  have hd : ∀ p, (wideBase.port p).windowsHeld = ([wide].filter (fun w => w.owner == p)).length
      ∧ (wideBase.port p).stripsHeld = (([wide].filter (fun w => w.owner == p)).map (fun w => w.stripMap.length)).sum := by
    decide +kernel
  have hgen : s.generationOf 1 = 0 := by
    rw [State.generationOf, hg]
    decide +kernel
  refine ⟨?_, ?_, ?_, ?_, ?_, ?_, ?_⟩ <;> (try rw [hw])
  · decide +kernel
  · decide +kernel
  · intro w h
    rw [List.mem_singleton.1 h]
    exact hgen.symm
  · decide +kernel
  · rw [ha, hr]
    exact pool_perm 8 (by decide)
  · exact fun p => (hh p).1.trans (hd p).1
  · exact fun p => (hh p).2.trans (hd p).2

/-- Port 0's slice serves a command of the wide window from a point of its work on. -/
def drawing (k : CommandKind) (payload : List Byte) (pr : Progress) : State :=
  { wideBase.setPort 0 { wideBase.port 0 with queue := [command k payload], progress := pr } with slice := some 0 }

/-- The window table agrees in every state that draws on the wide window. -/
theorem table_drawing (k : CommandKind) (payload : List Byte) (pr : Progress) : (drawing k payload pr).TableAgrees :=
  table_wide _ (by simp [drawing, wideBase, withWindow]) (by simp [drawing]) (by simp [drawing, wideBase])
    (by simp [drawing, wideBase, withWindow, ready, State.reset]) (fun p => by
      by_cases hp : p = 0
      · subst hp
        simp [drawing]
      · simp [drawing, hp])

/-- A command's second slice, after 64 cells. -/
def second : Progress := { Progress.fresh with started := true, next := 64, cellsDone := 64 }

/-- Port 0's slice serves a command on the wide window. -/
abbrev Draws (k : CommandKind) (payload : List Byte) (pr : Progress) : Prop :=
  Serves (drawing k payload pr) 0 k (command k payload) ∧ NamesOwn (drawing k payload pr) 0 (command k payload) wide
    ∧ (drawing k payload pr).StripsCanonical

/-- The first and the last slice of a fill of 128 cells, one of a single cell, a put, and operands that each check refuses. -/
theorem witness_FillAndPutWriteTheirCells :
    let fill : List Byte := [1, 0, 0, 0, 64, 2, 65, 0, 0xF0];
    let put : List Byte := [1, 0, 63, 1, 1, 1, 1, 65, 0, 0xF0];
    (Draws .fillRect fill .fresh ∧ Draws .fillRect fill second ∧ fillOperands fill = some (⟨0, 0, 64, 2⟩, ⟨65, 15, 0, false, false⟩))
      ∧ (Draws .putCells put .fresh ∧ putOperands put = some (⟨63, 1, 1, 1⟩, [⟨65, 15, 0, false, false⟩]))
      ∧ (fillOperands (fill.take 8) = none ∧ putOperands (put.take 8) = none ∧ rectOk 64 2 ⟨0, 0, 65, 1⟩ = false) := by
  decide +kernel

theorem witness_table : (drawing .fillRect [] .fresh).TableAgrees := table_drawing _ _ _

/-- A copy within one window that overlaps its source, from its first slice and from its second. -/
def copyPayload : List Byte := [1, 0, 0, 0, 63, 2, 1, 0, 1, 0]

theorem witness_CopyRectCopiesTheSourceAsItStood :
    let pr := { second with backward := true };
    (Draws .copyRect copyPayload .fresh ∧ Draws .copyRect copyPayload pr ∧ copyPayload.length = 10)
      ∧ ((drawing .copyRect copyPayload pr).windowOf (handleAt copyPayload 6) = some wide ∧ wide.owner = 0)
      ∧ (rectAt copyPayload 2 = ⟨0, 0, 63, 2⟩ ∧ 0 + 63 ≤ wide.sc ∧ 1 + 63 ≤ wide.sc ∧ 0 + 2 ≤ wide.sr ∧ pr.next ≤ 63 * 2) := by
  decide +kernel

theorem witness_CopyRectChecksItsSourceAtEverySlice :
    (∀ pr ∈ [Progress.fresh, second], Serves (drawing .copyRect copyPayload pr) 0 .copyRect (command .copyRect copyPayload)
        ∧ (drawing .copyRect copyPayload pr).windowOf (handleAt copyPayload 6) = some wide)
      ∧ (let stale := copyPayload.set 1 7;
        (drawing .copyRect stale second).windowOf (handleAt stale 0) = none)
      ∧ (let other := { wide with handle := ⟨2, 0⟩, owner := 1, grants := [] };
        other.owner ≠ 0 ∧ (0 : Port) ∉ other.grants)
      ∧ (copyPayload.take 8).length ≠ 10 ∧ rectOk wide.sc wide.sr ⟨0, 0, 63, 3⟩ = false := by decide +kernel

/-- Shifts by the greatest distance and by one, in both orders, and operands that each check refuses. -/
theorem witness_ShiftRectMovesItsCells :
    let shift (dr dc : Byte) : List Byte := [1, 0, 0, 0, 64, 2, dr, dc];
    (Draws .shiftRect (shift 1 0) .fresh ∧ Draws .shiftRect (shift 1 0) { second with backward := true })
      ∧ (Draws .shiftRect (shift 0xC1 63) .fresh ∧ shiftOperands (shift 0xC1 63) = some (⟨0, 0, 64, 2⟩, -63, 63))
      ∧ (shiftOperands (shift 0 0) = none ∧ shiftOperands (shift 64 0) = none)
      ∧ (shiftOperands [1, 0, 0, 0, 65, 1, 1, 0]).isSome ∧ rectOk 64 2 ⟨0, 0, 65, 1⟩ = false := by decide +kernel

/-- The items of a WRITE_TEXT as a payload for the wide window. -/
def text (items : List Nat) : List Byte := [1, 0, byte items.length] ++ (items.map be16).flatten

theorem witness_TextIsWrittenAtTheCursor :
    (Draws .writeText (text [72, 105]) .fresh
        ∧ textOperands (text [72, 105]) = some ([72, 105].map TextItem.glyph) ∧ wide.curCol + 2 < wide.sc ∧ wide.curRow < wide.sr)
      ∧ (Draws .writeText (text [320]) second ∧ textOperands (text [320]) = none)
      ∧ (textOperands (text (List.replicate 63 65)) = some ((List.replicate 63 65).map TextItem.glyph)
        ∧ wide.curCol + 63 < wide.sc) := by decide +kernel

/-- A window at the end of its last row, narrow enough to scroll in the slice of the glyph, and one too wide for that. -/
theorem witness_TextAdvancesItsLines :
    let owing := { second with next := 1, owed := true };
    (textOperands (text [0xFFFF]) = some [.return] ∧ textOperands (text [0xFFFE]) = some [.newLine]
        ∧ textOperands (text [65]) = some [.glyph 65] ∧ textOperands (text [65, 66]) = some [.glyph 65, .glyph 66]
        ∧ textOperands (text [65, 66, 67]) = some [.glyph 65, .glyph 66, .glyph 67]
        ∧ textOperands (text [65, 0xFFFF]) = some [.glyph 65, .return] ∧ textOperands (text [65, 0xFFFE]) = some [.glyph 65, .newLine])
      ∧ (∀ b, ∀ items ∈ [[0xFFFF], [0xFFFE], [65], [65, 66], [65, 66, 67], [65, 0xFFFF]],
        Acts (withWindow { demo with curCol := 3, curRow := 1, wrap := b, autoscroll := b }) .writeText (text items)
          { demo with curCol := 3, curRow := 1, wrap := b, autoscroll := b })
      ∧ Acts (withWindow { demo with curCol := 3, wrap := false }) .writeText (text [65, 0xFFFE]) { demo with curCol := 3, wrap := false }
      ∧ ((3 : Nat) + 1 = demo.sc ∧ 1 + 1 = demo.sr ∧ demo.sc ≤ 63 ∧ 64 ≤ wide.sc)
      ∧ (Draws .writeText (text [65]) owing ∧ owing.next = [TextItem.glyph 65].length) := by and_intros <;> decide +kernel

/-! ## Key focus, tones, brightness and frame marks -/

/-- A state whose key focus is a window of port 1, of a band. -/
def focused (b : Band) : State :=
  let other := { demo with handle := ⟨2, 0⟩, owner := 1, band := b }
  { base with windows := [other, demo], focus := some ⟨2, 0⟩ }

theorem witness_FocusMovesUnderTheFocusRule :
    (Acts base .requestFocus [1, 0] demo ∧ Acts { base with focus := some ⟨1, 0⟩ } .requestFocus [1, 0] demo
        ∧ Acts base .requestFocus [1, 0, 0] demo)
      ∧ (Acts (focused .base) .requestFocus [1, 0] demo ∧ (focused .base).permitsFocus demo = true
        ∧ Acts (focused .alert) .requestFocus [1, 0] demo ∧ (focused .alert).permitsFocus demo = false)
      ∧ (let s := serving { base with focus := some ⟨1, 0⟩ } .releaseFocus [];
        Serves s 0 .releaseFocus (command .releaseFocus []) ∧ s.focusWindow = some demo ∧ demo.owner = 0)
      ∧ (let s := serving base .releaseFocus [0];
        Serves s 0 .releaseFocus (command .releaseFocus [0]) ∧ s.focusWindow = none) := by and_intros <;> decide +kernel

theorem witness_BrightnessAndFrameMarksAreAskedFor :
    (∀ b ∈ ([0, 100, 101, 254, 255] : List Byte),
        Serves (serving base .setBrightness [b]) 0 .setBrightness (command .setBrightness [b]))
      ∧ Serves (serving base .frameMark []) 0 .frameMark (command .frameMark [])
      ∧ Serves (serving base .frameMark [0]) 0 .frameMark (command .frameMark [0]) := by decide +kernel

/-- A TONE_START of a STEADY tone of a band. -/
def tonePayload (band : Byte) : List Byte := [0, 0, band] ++ be16 600 ++ [7, 1]

/-- An active request of a pattern, with a duration and an age. -/
def toneOf (pattern : TonePattern) (duration age : Nat) : Tone := ⟨pattern, .low, .base, duration, 7, true, 1, age⟩

theorem witness_ToneCommandsStartAndStopRequests :
    (Serves (serving base .toneStart (tonePayload 0)) 0 .toneStart (command .toneStart (tonePayload 0))
        ∧ toneOperands (tonePayload 0) = some ⟨.steady, .low, .base, 600, 7, true⟩
        ∧ toneOperands ((tonePayload 0).set 4 0x59) = none)
      ∧ (toneOperands (tonePayload 2)).map (fun o => decide ((base.portProf 0).maxBand.rank < o.band.rank)) = some true
      ∧ (let s := serving (base0 (fun q => { q with state := .lapsed })) .toneStart (tonePayload 0);
        Serves s 0 .toneStart (command .toneStart (tonePayload 0)) ∧ (s.port 0).state = .lapsed)
      ∧ (let s := serving (base0 (fun q => { q with tone := some (toneOf .steady 0 0) })) .toneStop [];
        Serves s 0 .toneStop (command .toneStop []) ∧ (s.port 0).tone ≠ none)
      ∧ Serves (serving base .toneStop []) 0 .toneStop (command .toneStop []) ∧ (base.port 0).tone = none := by decide +kernel

theorem witness_TonesRunOnTheirOwnTime :
    (let due (t : Tone) : Bool := (base0 (fun q => { q with tone := some t })).toneDue 0;
      due (toneOf .chirp 0 40) ∧ ¬ due (toneOf .chirp 0 39) ∧ due (toneOf .steady 1 100) ∧ ¬ due (toneOf .steady 1 99)
        ∧ ¬ due (toneOf .pulsed 0 100000))
      ∧ (base.sounding = none ∧ (toneOf .pulsed 0 199).onPhase = true ∧ (toneOf .pulsed 0 200).onPhase = false
        ∧ (toneOf .pulsed 0 400).onPhase = true)
      ∧ (base.sounder = none ∧ ∀ pitch, ({ base with sounder := some pitch } : State).sounder = some pitch) :=
  ⟨by decide +kernel, by decide +kernel, by decide +kernel, fun _ => rfl⟩

/-- No port of the state with a window holds a tone request, and no slice is in flight there. -/
theorem base_quiet : (∀ p, (base.port p).tone = none) ∧ base.slice = none := by decide +kernel

theorem witness_TheHighestLatestRequestSounds : base.SoundAgrees :=
  ⟨by decide +kernel, fun p _ h => by simp [base_quiet.1 p] at h, fun p _ _ _ h => by simp [base_quiet.1 p] at h⟩

/-! ## The compositor -/

theorem witness_FrameStartLatchesTheComposition :
    State.reset.device ≠ .ready
      ∧ (let s := base0 (fun q => { q with queue := [command .frameMark []], waiter := true, brightness := some 0 });
        s.device = .ready ∧ (s.port 0).waiter = true ∧ (s.port 0).queue.head? = some (command .frameMark [])
          ∧ ∀ p, (s.port p).waiter = true → (s.port p).queue.head?.map (fun c => c.kind) = some .frameMark) := by decide +kernel

/-- The demonstration window as a composition list holds it. -/
def latchedDemo : LatchedWindow := latchWindow demo .normal

/-- A state whose composition list holds the demonstration window with key focus, at a screen row. -/
def scanning (row : Nat) : State :=
  { base with latched := some ⟨[latchedDemo], some ⟨⟨1, 0⟩, 0, 0, true, 15⟩⟩, scanRow := row, blinkCount := 30 }

theorem witness_ScanFetchesTheVisibleMap :
    base.latched = none ∧ base.prof.gridRows ≤ (scanning 30).scanRow ∧ (scanning 29).scanRow < base.prof.gridRows
      ∧ (scanning 1).device = .ready ∧ contains latchedDemo.view 3 1 = true ∧ contains latchedDemo.view 4 1 = false := by
  decide +kernel

/-- The cursor of the focus window stands in the first cell of the first row, in an on frame. -/
theorem witness_PixelsFollowTheColourTable :
    (scanning 0).latched = some ⟨[latchedDemo], some ⟨⟨1, 0⟩, 0, 0, true, 15⟩⟩ ∧ (scanning 0).device = .ready
      ∧ (scanning 0).scanRow < (scanning 0).prof.gridRows
      ∧ (scanning 0).cursorOn ⟨[latchedDemo], some ⟨⟨1, 0⟩, 0, 0, true, 15⟩⟩ 0 = some (0, 15)
      ∧ (after .scanRowFetch (scanning 0)).rowBuffer[0]?.isSome = true := by decide +kernel

/-! ## Touch and keys -/

/-- A sampler in contact state DOWN, with a run count. -/
def touching (run : Nat) : State := { base with sampler := ⟨true, run, some ⟨10, 10⟩, some ⟨10, 10⟩⟩, capture := .captured ⟨1, 0⟩ 0 }

theorem witness_TouchSamplesMakeTheirReports :
    (1 ≤ Profile.default_.gridCols ∧ 1 ≤ Profile.default_.gridRows) ∧ State.reset.device ≠ .ready
      ∧ (base.device = .ready ∧ base.prof.touchEnabled = true ∧ base.sampler.down = false ∧ base.sampler.run = 0)
      ∧ (touching 1).sampler.run < 2 ∧ (touching 2).sampler.run = 2 ∧ (touching 1).sampler.lastReported = some ⟨10, 10⟩
      ∧ (travelled base.prof.moveThreshold (some ⟨10, 10⟩) ⟨14, 10⟩ = true
        ∧ travelled base.prof.moveThreshold (some ⟨10, 10⟩) ⟨13, 7⟩ = false) := by decide +kernel

theorem witness_PressesAndReleasesAreRouted :
    (let s := { scanning 0 with sampler := ⟨false, 1, none, none⟩ };
      s.device = .ready ∧ s.prof.touchEnabled = true ∧ s.sampler.down = false ∧ s.sampler.run = 1
        ∧ s.hitTest (mapTouch s.prof 0 0) = some demo ∧ s.hitTest (mapTouch s.prof 4095 4095) = none)
      ∧ ((touching 2).sampler.down = true ∧ (touching 2).sampler.run = 2 ∧ (touching 2).sampler.lastContact = some ⟨10, 10⟩
        ∧ (touching 2).capture = .captured ⟨1, 0⟩ 0) := by decide +kernel

/-- A state whose key 0 is as given, with port 0's window in focus. -/
def keyed (q : KeyRec) : State := { base with focus := some ⟨1, 0⟩ }.setKey 0 q

theorem witness_KeyReadingsAgreeTwentyTimes :
    State.reset.device ≠ .ready ∧ base.device = .ready ∧ (base.key 0).down = false
      ∧ ((keyed ⟨false, 18, none, none⟩).key 0).agree < 19 ∧ ((keyed ⟨false, 19, none, none⟩).key 0).agree = 19
      ∧ ((keyed ⟨true, 19, some 1, none⟩).key 0).down = true ∧ ((keyed ⟨true, 19, some 1, none⟩).key 0).timer ≠ some 0 := by
  decide +kernel

theorem witness_KeyReportsFollowTheirCapture :
    let held := keyed ⟨true, 19, some 0, some ⟨[0], some ⟨1, 0⟩⟩⟩;
    (base.device = .ready ∧ ((keyed ⟨false, 19, none, none⟩).key 0).down = false
        ∧ ((keyed ⟨false, 19, none, none⟩).key 0).agree = 19)
      ∧ (base.prof.routing.get 0 = .focus ∧ base.prof.routing.get 7 = .silence)
      ∧ (let s := (base0 (fun q => { q with tone := some { toneOf .steady 0 0 with band := .critical } })).setKey 7 ⟨false, 19, none, none⟩;
        (s.key 7).down = false ∧ (s.key 7).agree = 19 ∧ (s.port 0).tone.map (fun u => u.band) = some .critical
          ∧ ∀ p, p ≠ 0 → (s.port p).tone = none)
      ∧ ((held.key 0).down = true ∧ (held.key 0).timer = some 0 ∧ (held.key 0).agree = 19
        ∧ (held.key 0).capture = some ⟨[0], some ⟨1, 0⟩⟩ ∧ ([0] : List Port).Nodup) := by decide +kernel

/-! ## Invariants: the state with a window and two sessions meets each, and takes a step -/

/-- The step that a state with an empty queue takes. -/
theorem base_steps : step base = .next base.idle := rfl

theorem witness_StepKeepsTheStoreAndStackInOrder : base.StripsCanonical ∧ base.BandsInOrder := by decide +kernel

theorem witness_StepKeepsTheTableAgreeing : wideBase.TableAgrees ∧ step wideBase = .next wideBase.idle :=
  ⟨table_wide _ (by simp [wideBase, withWindow]) rfl (by simp [wideBase])
    (by simp [wideBase, withWindow, ready, State.reset]) (fun _ => ⟨rfl, rfl⟩), rfl⟩

theorem witness_StepKeepsTheLinksBounded : base.LinksBounded := by decide +kernel

theorem witness_StepKeepsTheEngineBusy : base.EngineAgrees :=
  ⟨by decide +kernel, by decide +kernel, fun _ h => by simp [base_quiet.2] at h, by decide +kernel, by decide +kernel,
    by decide +kernel, by decide +kernel, fun h => absurd rfl h⟩

theorem witness_StepKeepsTheSessionsAgreeing : base.SessionsAgree :=
  ⟨by decide +kernel, fun _ h => by simp [base_quiet.2] at h, by decide +kernel, by decide +kernel, by decide +kernel,
    by decide +kernel, by decide +kernel⟩

theorem witness_StepKeepsTheInputsAgreeing : base.InputAgrees := by
  have hc : ∀ k, (base.key k).capture = none ∧ (base.key k).down = false ∧ (base.key k).timer = none := by decide +kernel
  refine ⟨by decide +kernel, fun h e => ?_, fun h o e => ?_, fun k c e => ?_, fun k => ?_, fun k _ => (hc k).2.2, by decide +kernel⟩
  · exact absurd e (by simp [show base.focus = none from rfl])
  · exact absurd e (by simp [show base.capture = .idle from rfl])
  · rw [(hc k).1] at e
    exact absurd e (by simp)
  · rw [(hc k).1, (hc k).2.1]
    rfl

theorem witness_StepKeepsTheExposureAgreeing : base.ExposureAgrees :=
  ⟨by decide +kernel, fun _ h => by simp [base_quiet.2] at h, by decide +kernel, by decide +kernel, by decide +kernel⟩

theorem witness_StepKeepsTheGeometryAgreeing : base.GeometryAgrees :=
  ⟨by decide +kernel, fun _ h => by simp [base_quiet.2] at h, fun h => absurd rfl h, by decide +kernel, by decide +kernel,
    by decide +kernel, by decide +kernel⟩

theorem witness_StepKeepsTheSoundAgreeing : base.SoundAgrees := witness_TheHighestLatestRequestSounds

theorem witness_ResetLeavesTheStatedValues :
    (after .deviceReset base).device = .held ∧ base.device ≠ .held := by decide +kernel

theorem witness_StatusReportsThePort : base.device = .ready := rfl

theorem witness_CommandEndsTouchTheirPortOnly :
    (command .setPen []).report = true ∧ ({ command .setPen [] with report := false } : QCmd).kind ≠ .readCells
      ∧ Status.noWindow ≠ .ok := by decide +kernel

/-! ## Steps with values from the manual -/

/-- The EMPTY reply's five bytes (R170, R171). -/
theorem test_empty_reply : Reply.emptyReply.bytes = [0, 0, 0, 0, 0] := by decide +kernel

/-- ATTACH makes a DETACHED port LIVE with epoch 1 and a full lease (R105). -/
theorem test_attach :
    let t := after (.attach 2 5) ready;
    (t.port 2).state = .live ∧ (t.port 2).epoch = 1 ∧ (t.port 2).lease = 2000 := by decide +kernel

/-- A frame admitted twice is acknowledged as a duplicate the second time (R172, R173). -/
theorem test_duplicate_command :
    let once := after (.commandAdmission 0 .toneStop 0 7 []) base;
    ((after (.commandAdmission 0 .toneStop 0 7 []) once).port 0).reply.map (fun r => r.code) = some .ackDuplicate := by decide +kernel

/-- The epoch and the frame number go from their greatest value to 0 (R89, R105). -/
theorem test_counters_wrap :
    ((after (.attach 2 5) (ready.setPort 2 { PortRec.reset with epoch := 255 })).port 2).epoch = 0
      ∧ (after .frameStart { base with frameNumber := 65535, blinkCount := 59 }).frameNumber = 0
      ∧ (after .frameStart { base with frameNumber := 65535, blinkCount := 59 }).blinkCount = 0 := by decide +kernel

/-- A fill writes the last cell of its rectangle, and not the cell after it (R77). -/
theorem test_fill :
    let t := after (.fillRect 0) (serving base .fillRect [1, 0, 0, 0, 2, 2, 65, 0, 0xF0]);
    t.cellOf demo 1 1 = ⟨65, 15, 0, false, false⟩ ∧ t.cellOf demo 2 1 = Cell.blank ∧ t.slice = none := by decide +kernel

/-- A put of two cells followed by a copy one column to the right over itself moves both (R78, R79). -/
theorem test_copy_overlap :
    let t := after (.putCells 0) (serving base .putCells [1, 0, 0, 0, 2, 1, 2, 65, 0, 0xF0, 66, 0, 0xF0]);
    let u := after (.copyRect 0) (serving t .copyRect [1, 0, 0, 0, 2, 1, 1, 0, 1, 0]);
    (List.range 4).map (fun c => (u.cellOf demo c 0).glyph) = [65, 65, 66, 0] := by decide +kernel

/-- A NEW_LINE in the last row scrolls the text up and fills the row with the clear cell (R74). -/
theorem test_scroll :
    let s := withWindow { demo with curRow := 1 };
    let t := after (.writeText 0) (serving s .writeText (text [65, 0xFFFE]));
    (t.windows.map (fun w => (t.cellOf w 0 0).glyph), t.windows.map (fun w => (t.cellOf w 0 1).glyph)) = ([65], [32]) := by
  decide +kernel

/-- A shift down by one row clears the row it leaves (R83). -/
theorem test_shift :
    let t := after (.putCells 0) (serving base .putCells [1, 0, 0, 0, 2, 1, 2, 65, 0, 0xF0, 66, 0, 0xF0]);
    let u := after (.shiftRect 0) (serving t .shiftRect [1, 0, 0, 0, 2, 2, 1, 0]);
    ((u.cellOf demo 1 1).glyph, (u.cellOf demo 1 0).glyph) = (66, 32) := by decide +kernel

/-- A new window takes slot 2, the top of its band and the next strips, and reads as its clear cell (R7, R19, R28). -/
theorem test_create :
    let t := after (.createWindow 0) (serving base .createWindow (createPayload 0));
    t.windows.map (fun w => (w.handle.slot, w.stripMap, (t.cellOf w 3 1).glyph)) = [(2, [2, 3], 32), (1, [0, 1], 0)] := by
  decide +kernel

/-- A destroyed window's slot has its next generation, and its strips retire until the frame start (R11, R19, R29). -/
theorem test_destroy :
    let t := after (.destroyWindow 0) (serving base .destroyWindow [1, 0]);
    (t.windows, t.generationOf 1, t.retiring) = ([], 1, [0, 1]) ∧ (after .frameStart t).retiring = [] := by decide +kernel

/-- A window that another port's window covers has exposure NONE (R24). -/
theorem test_exposure :
    let s := serving (withWindow demo) .createWindow [1, 4, 2, 0, 0, 4, 2, 0, 0, 32, 0, 0x71];
    let t := after (.createWindow 0) s;
    let u := after (.showWindow 0) (serving t .showWindow [2, 0]);
    u.windows.map (fun w => (w.exposure, w.visible)) = [(.full, 8), (.none, 0)] := by decide +kernel

/-- The twentieth reading of the pressed level delivers KEY_DOWN to the focus window's owner with its handle (R147, R149). -/
theorem test_key_down :
    let t := after (.keyReading 0 true) (keyed ⟨false, 19, none, none⟩);
    (t.port 0).events = [⟨.keyDown 0, 0, some ⟨1, 0⟩, false⟩] ∧ (t.key 0).timer = some 500 := by decide +kernel

/-- The second contact sample is a press, and the window under it takes the capture and key focus (R136, R141, R142). -/
theorem test_press :
    let t := after (.touchSample (some (0, 0))) { scanning 0 with sampler := ⟨false, 1, some ⟨0, 0⟩, none⟩ };
    t.capture = .captured ⟨1, 0⟩ 0 ∧ t.focus = some ⟨1, 0⟩
      ∧ (t.port 0).events.map (fun r => r.body) = [.touchPress ⟨0, 0⟩, .focusGained] := by decide +kernel

/-- A SILENCE key ends a BASE request and leaves a CRITICAL one sounding (R152, R163). -/
theorem test_silence :
    let s := { base0 (fun q => { q with tone := some (toneOf .steady 0 0) }) with sounding := some 0, sounder := some .low };
    let s := s.setPort 1 { session with tone := some { toneOf .steady 0 0 with band := .critical, pitch := .high, seq := 0 } };
    let t := after (.downReport 7) (s.setKey 7 ⟨false, 19, none, none⟩);
    (t.port 0).tone = none ∧ t.sounding = some 1 ∧ t.sounder = some .high
      ∧ (t.port 0).events.map (fun r => r.body) = [.toneEnded 7 .silenced] := by decide +kernel

/-- A lapsed CRITICAL window is rendered MARK though it is hidden, and a lapsed window of policy HIDE is not composed (R22). -/
theorem test_lapse_rendering :
    renderingOf .lapsed { demo with shown := false, band := .critical } = some .mark
      ∧ renderingOf .lapsed { demo with lapsePolicy := .hide } = none ∧ renderingOf .lapsed demo = some .normal := by
  decide +kernel

/-- DETACH closes a port with a window; the removal of its last window makes it DETACHED (R42, R115, R118). -/
theorem test_detach_and_teardown :
    let t := after (.detach 0 3) base;
    (t.port 0).state = .closing ∧ (t.port 0).reply = some ⟨.ack, 3, .detach 1 .live⟩
      ∧ ((after (.teardownRemoval 0) t).port 0).state = .detached := by decide +kernel

/-- A teardown's removal that comes during a slice of a copy from its window is taken after that slice (R81). -/
theorem test_removal_waits :
    let s := after (.teardownRemoval 0) (copiedFrom (some 1));
    s.windows = [demo] ∧ (after (.copyRect 1) s).windows = [] ∧ ((after (.copyRect 1) s).port 0).state = .detached
      ∧ (after (.teardownRemoval 0) (copiedFrom none)).windows = [] := by decide +kernel

/-- The next slice of the copy meets the removal: it ends SOURCE_LOST with the cells of the slice before (R54, R81). -/
theorem test_copy_meets_removal :
    let target := { wide with handle := ⟨2, 0⟩, owner := 1, stripMap := [8, 9, 10, 11, 12, 13, 14, 15] };
    let s := { (wideBase.setPort 0 { session with state := .closing }).setPort 1
      { session with queue := [command .copyRect [1, 0, 0, 0, 64, 2, 2, 0, 0, 0]] } with slice := some 1, windows := [target, wide] };
    let t := after (.copyRect 1) (after (.teardownRemoval 0) s);
    t.slice = some 1 ∧ t.windows.map (fun w => w.handle) = [⟨2, 0⟩]
      ∧ ((after (.copyRect 1) t).port 1).events.map (fun r => match r.body with
          | .failed x => (x.status, x.cellsDone)
          | _ => (.ok, none)) = [(.sourceLost, some 64)] := by decide +kernel

/-- Fifteen milliseconds scan every row of a screen of 16, 31, 32 and 40 rows (R92). -/
theorem test_scan_pace :
    [16, 31, 32, 40].map (fun n => State.rowsPerMs { base with profile := some { Profile.default_ with gridRows := n } }) = [2, 3, 3, 3] := by
  decide +kernel

/-- Data out is 0 in a SEND and in an ignored transaction, whatever the FETCH before them shifted out (R166). -/
theorem test_data_out_held :
    let s := base0 (fun q => { q with dataOut := [1, 2, 3] });
    (s.port 0).dataOutAt 1 = 2 ∧ ((after (.status 0 7) s).port 0).dataOutAt 1 = 0
      ∧ ((after (.ignoredTransaction 0 [0x6F]) s).port 0).dataOutAt 1 = 0 := by decide +kernel

/-- A transaction with the lead byte of a FETCH shifts the EMPTY reply out (R166, R171). -/
theorem test_fetch_lead : ((after (.ignoredTransaction 0 [0x9B, 0, 0]) base).port 0).dataOut = [0, 0] := by decide +kernel

/-- The profile lines are driven while STARTING and idle, select high and clock low, at READY and in reset (R178, R184). -/
theorem test_profile_lines :
    State.reset.profileLines = .reading ∧ base.profileLines.levels = some (true, false)
      ∧ (after .deviceReset base).profileLines = .idle := by decide +kernel

/-- The tone pair: both lines low at READY with no request, in antiphase at 3.2 kHz after a HIGH tone starts (R158, R184). -/
theorem test_tone_pair :
    base.tonePair.levels true = (false, false)
      ∧ (let s := after (.toneStart 0) (serving base .toneStart [0, 1, 0, 0, 1, 7, 0]);
        s.tonePair = .driven .high ∧ s.tonePair.levels false = (false, true) ∧ s.tonePair.hertz = some 3200) := by
  decide +kernel

/-- SET_WINDOW_MODES with its presence byte first: no wrap, and the window's handle after the presence byte (R36, R174). -/
theorem test_modes :
    ((after (.setWindowModes 0) (serving base .setWindowModes [1, 1, 0, 0])).windowOf ⟨1, 0⟩).map (fun w => w.wrap)
      = some false := by decide +kernel

/-- A bar segment of each quarter of Table 1-2: three columns left, four rows below, three columns right, four rows above (R2). -/
theorem test_bar_segments :
    (builtinGlyph 183).get 0 = 0xE0#8 ∧ (builtinGlyph 199).get 15 = 0x07#8
      ∧ ((builtinGlyph 190).get 11, (builtinGlyph 190).get 12) = (0#8, 0xFF#8)
      ∧ ((builtinGlyph 206).get 3, (builtinGlyph 206).get 4) = (0xFF#8, 0#8) := by decide +kernel

/-- In the discarding state one overflow mark is written, and RETURN ends the state (R72, R73). -/
theorem test_discarding :
    let w := { demo with curCol := 3, wrap := false, pen := ⟨63, 15, 0, false, false⟩ };
    let t := after (.writeText 0) (serving (withWindow w) .writeText (text [65, 66, 67, 0xFFFF, 68]));
    t.windows.map (fun w => (w.curCol, (t.cellOf w 0 0).glyph, (t.cellOf w 3 0).glyph)) = [(1, 68, 63)] := by decide +kernel

/-- A port that closes at its grace expiry during a FETCH has an empty buffer; the FETCH goes on and consumes nothing (R171). -/
theorem test_fetch_over_closing :
    let s := base0 (fun q => { q with reply := some ⟨.ack, 1, .none⟩, state := .lapsed, lease := 0, grace := 0 });
    let t := after (.fetch 0 (.rise 2)) (after (.graceExpiry 0) (after (.fetch 0 .lead) s));
    (t.port 0).dataOut = [1, 1] ∧ (t.port 0).reply = none ∧ (t.port 0).state = .closing := by decide +kernel

end Sys2Proof.Tests
end

section
namespace Sys2Proof.Machine

-- One theorem is checked at a time, as in the tests above: the threads of many checks at once do not fit the memory limit.
set_option Elab.async false

/-! What a step can do to the window table, the strip pool, the holdings and the port states: the changes that leave the
table's agreement alone, the four that do not, and that every step is a sequence of these. -/


/-! ## Changes that keep the table -/

/-- A window changed in fields that are neither its identity nor its surface, and still within the geometry rules of a profile if
it was so before. -/
structure Window.Kept (prof : Profile) (w x : Window) : Prop where
  handle : x.handle = w.handle
  owner : x.owner = w.owner
  sc : x.sc = w.sc
  sr : x.sr = w.sr
  stripMap : x.stripMap = w.stripMap
  geometry : geometryOk prof w.sc w.sr w.view w.offCol w.offRow = true →
    geometryOk prof x.sc x.sr x.view x.offCol x.offRow = true
  cursor : w.curCol < w.sc ∧ w.curRow < w.sr → x.curCol < x.sc ∧ x.curRow < x.sr

theorem Window.Kept.refl (prof : Profile) (w : Window) : w.Kept prof w := ⟨rfl, rfl, rfl, rfl, rfl, id, id⟩

theorem Window.Kept.trans {prof : Profile} {w x y : Window} (h : w.Kept prof x) (h' : x.Kept prof y) : w.Kept prof y :=
  ⟨h'.handle.trans h.handle, h'.owner.trans h.owner, h'.sc.trans h.sc, h'.sr.trans h.sr, h'.stripMap.trans h.stripMap,
    h'.geometry ∘ h.geometry, h'.cursor ∘ h.cursor⟩

/-- No two windows stand in one slot (R16). -/
abbrev State.SlotsDistinct (s : State) : Prop := (s.windows.map (fun w => w.handle.slot)).Nodup

/-- No session before READY, and no slice of a port without one (R47, R61, R103). -/
abbrev State.Quiet (s : State) : Prop := s.QuietStart ∧ s.SliceEngaged

/-- The windows `ws` became `xs`: each was kept, and their order may be another. -/
def KeptAll (prof : Profile) (ws xs : List Window) : Prop := ∃ l, List.Forall₂ (Window.Kept prof) ws l ∧ xs.Perm l

/-- `t` is `s` but for changes that move no window in or out, no strip between the pool and a window, and no holding. While no
two windows share a slot, every window is kept. -/
structure SameTable (s t : State) : Prop where
  device : t.device = s.device
  profile : t.profile = s.profile
  generations : t.generations = s.generations
  pool : (t.available ++ t.retiring).Perm (s.available ++ s.retiring)
  windows : s.SlotsDistinct → KeptAll s.prof s.windows t.windows
  windowsHeld : ∀ p, (t.port p).windowsHeld = (s.port p).windowsHeld
  stripsHeld : ∀ p, (t.port p).stripsHeld = (s.port p).stripsHeld
  quiet : s.Quiet → t.Quiet

theorem KeptAll.refl (prof : Profile) (ws : List Window) : KeptAll prof ws ws :=
  ⟨ws, List.forall₂_same.2 (fun w _ => .refl prof w), .refl _⟩

theorem KeptAll.trans {prof : Profile} {ws xs ys : List Window} (h : KeptAll prof ws xs) (h' : KeptAll prof xs ys) :
    KeptAll prof ws ys := by
  obtain ⟨l, hl, hp⟩ := h
  obtain ⟨l', hl', hp'⟩ := h'
  obtain ⟨m, hm, hpm⟩ := List.perm_comp_forall₂ hp.symm hl'
  refine ⟨m, ?_, hp'.trans hpm.symm⟩
  clear hp hp' hl' hpm
  induction hl generalizing m with
  | nil => cases hm; exact .nil
  | cons hk _ ih =>
    cases hm with
    | cons hk' hr => exact .cons (hk.trans hk') (ih _ hr)

/-- A field that kept windows agree in has the same values, in some order. -/
theorem KeptAll.map_perm {prof : Profile} {ws xs : List Window} (h : KeptAll prof ws xs) {α : Type} (f : Window → α)
    (hf : ∀ w x, Window.Kept prof w x → f x = f w) : (xs.map f).Perm (ws.map f) := by
  obtain ⟨l, hl, hp⟩ := h
  refine (hp.map f).trans (.of_eq ?_)
  clear hp
  induction hl with
  | nil => rfl
  | cons hk _ ih => simp [hf _ _ hk, ih]

/-- Each window was one of the windows before. -/
theorem KeptAll.exists_of_mem {prof : Profile} {ws xs : List Window} (h : KeptAll prof ws xs) {x : Window} (hx : x ∈ xs) :
    ∃ w ∈ ws, w.Kept prof x := by
  obtain ⟨l, hl, hp⟩ := h
  have hx : x ∈ l := hp.mem_iff.1 hx
  clear hp
  induction hl with
  | nil => cases hx
  | cons hk _ ih =>
    rcases List.mem_cons.1 hx with rfl | hx
    · exact ⟨_, List.mem_cons_self, hk⟩
    · obtain ⟨w, hw, hk⟩ := ih hx
      exact ⟨w, List.mem_cons_of_mem _ hw, hk⟩

theorem KeptAll.slotsDistinct {s t : State} (h : KeptAll s.prof s.windows t.windows) (hs : s.SlotsDistinct) : t.SlotsDistinct :=
  (h.map_perm (fun w => w.handle.slot) (fun _ _ k => by rw [k.handle])).nodup_iff.2 hs

theorem State.prof_congr {s t : State} (h : t.profile = s.profile) : t.prof = s.prof := by unfold State.prof; rw [h]

theorem State.Quiet.congr {s t : State} (h : s.Quiet) (hd : t.device = s.device)
    (hs : ∀ p, (t.port p).state = (s.port p).state) (hl : t.slice = s.slice) : t.Quiet := by
  refine ⟨fun hr p => ?_, fun p hp => ?_⟩
  · rw [hs]; exact h.1 (hd ▸ hr) p
  · rw [hs]; exact h.2 p (hl ▸ hp)

theorem SameTable.refl (s : State) : SameTable s s :=
  ⟨rfl, rfl, rfl, .refl _, fun _ => .refl _ _, fun _ => rfl, fun _ => rfl, id⟩

theorem SameTable.trans {s t u : State} (h : SameTable s t) (h' : SameTable t u) : SameTable s u where
  device := h'.device.trans h.device
  profile := h'.profile.trans h.profile
  generations := h'.generations.trans h.generations
  pool := h'.pool.trans h.pool
  windows hs := (h.windows hs).trans (State.prof_congr h.profile ▸ h'.windows ((h.windows hs).slotsDistinct hs))
  windowsHeld p := (h'.windowsHeld p).trans (h.windowsHeld p)
  stripsHeld p := (h'.stripsHeld p).trans (h.stripsHeld p)
  quiet := h'.quiet ∘ h.quiet

/-- A change of fields that the table, the pool, the ports and the arbiter's grant do not read. -/
theorem SameTable.of_rest {s t : State} (hd : t.device = s.device := by rfl) (hp : t.profile = s.profile := by rfl)
    (hg : t.generations = s.generations := by rfl) (ha : t.available = s.available := by rfl)
    (hr : t.retiring = s.retiring := by rfl) (hw : t.windows = s.windows := by rfl) (hq : t.ports = s.ports := by rfl)
    (hl : t.slice = s.slice := by rfl) : SameTable s t := by
  have hport : ∀ p, t.port p = s.port p := fun p => by rw [State.port, hq, State.ports_get]
  refine ⟨hd, hp, hg, by rw [ha, hr], fun _ => hw ▸ .refl _ _, fun p => by rw [hport], fun p => by rw [hport], fun h => ?_⟩
  exact h.congr hd (fun p => by rw [hport]) hl

/-- A change of what a port holds other than its state and its holdings. -/
theorem SameTable.of_port (s : State) (p : Port) (r : PortRec) (hs : r.state = (s.port p).state := by rfl)
    (hw : r.windowsHeld = (s.port p).windowsHeld := by rfl) (hn : r.stripsHeld = (s.port p).stripsHeld := by rfl) :
    SameTable s (s.setPort p r) := by
  have hport : ∀ q, ((s.setPort p r).port q).state = (s.port q).state ∧ ((s.setPort p r).port q).windowsHeld = (s.port q).windowsHeld
      ∧ ((s.setPort p r).port q).stripsHeld = (s.port q).stripsHeld := by
    intro q
    by_cases hq : q = p
    · subst hq; simp [hs, hw, hn]
    · simp [State.port_setPort_ne _ _ hq]
  exact ⟨rfl, rfl, rfl, .refl _, fun _ => .refl _ _, fun q => (hport q).2.1, fun q => (hport q).2.2,
    fun h => h.congr rfl (fun q => (hport q).1) rfl⟩

/-- A change of a port's state: it makes a session only on a READY device or from another session, and ends one only while the
port has no slice in flight. -/
theorem SameTable.of_state (s : State) (p : Port) (r : PortRec)
    (hready : r.state = .detached ∨ s.device = .ready ∨ (s.port p).state ≠ .detached)
    (hengaged : r.state.engaged ∨ s.slice ≠ some p)
    (hw : r.windowsHeld = (s.port p).windowsHeld := by rfl) (hn : r.stripsHeld = (s.port p).stripsHeld := by rfl) :
    SameTable s (s.setPort p r) := by
  refine ⟨rfl, rfl, rfl, .refl _, fun _ => .refl _ _, fun q => ?_, fun q => ?_, fun ⟨h1, h2⟩ => ⟨fun hd q => ?_, fun q hq => ?_⟩⟩
  · rw [State.port_setPort]; split <;> simp_all
  · rw [State.port_setPort]; split <;> simp_all
  · have hd : s.device ≠ .ready := hd
    rw [State.port_setPort]
    split
    · rcases hready with h | h | h
      · exact h
      · exact absurd h hd
      · exact absurd (h1 hd p) h
    · exact h1 hd q
  · have hq : s.slice = some q := hq
    rw [State.port_setPort]
    split
    · rename_i hqp
      exact hengaged.resolve_right (fun h => h (hqp ▸ hq))
    · exact h2 q hq

/-- Posted records keep the table. -/
theorem SameTable.of_records {s t : State} (h : s.RecordsOnly t) : SameTable s t := by
  obtain ⟨ht, hp⟩ := h
  have hport : ∀ p, (t.port p).state = (s.port p).state ∧ (t.port p).windowsHeld = (s.port p).windowsHeld
      ∧ (t.port p).stripsHeld = (s.port p).stripsHeld := fun p => by rw [hp p]; exact ⟨rfl, rfl, rfl⟩
  have hdev : t.device = s.device := by rw [ht]
  have hslice : t.slice = s.slice := by rw [ht]
  refine ⟨hdev, by rw [ht], by rw [ht], by rw [ht], fun _ => ?_, fun p => (hport p).2.1, fun p => (hport p).2.2, fun h => ?_⟩
  · rw [ht]; exact .refl _ _
  · exact h.congr hdev (fun p => (hport p).1) hslice

/-- Kept windows in the table's place. -/
theorem SameTable.of_windows (s : State) (ws : List Window) (h : s.SlotsDistinct → KeptAll s.prof s.windows ws) :
    SameTable s { s with windows := ws } :=
  ⟨rfl, rfl, rfl, .refl _, h, fun _ => rfl, fun _ => rfl, fun q => q.congr rfl (fun _ => rfl) rfl⟩

/-- Every window changed to one that keeps it. -/
theorem SameTable.of_map (s : State) (g : Window → Window) (hg : ∀ w ∈ s.windows, s.SlotsDistinct → w.Kept s.prof (g w)) :
    SameTable s { s with windows := s.windows.map g } :=
  .of_windows s _ fun hd => ⟨_, List.forall₂_map_right_iff.2 (List.forall₂_same.2 fun w hw => hg w hw hd), .refl _⟩

/-! ## Windows by handle -/

theorem State.mem_of_windowOf {s : State} {h : Handle} {w : Window} (hw : s.windowOf h = some w) : w ∈ s.windows :=
  List.mem_of_find?_eq_some hw

/-- Windows in slots of their own are told apart by their handles. -/
theorem State.SlotsDistinct.eq_of_handle {s : State} (hd : s.SlotsDistinct) {w x : Window} (hw : w ∈ s.windows)
    (hx : x ∈ s.windows) (h : x.handle = w.handle) : x = w :=
  List.inj_on_of_nodup_map hd hx hw (by rw [h])

/-- A window of the table changed in place to one that keeps it. -/
theorem SameTable.updateWindow (s : State) {w : Window} (hw : w ∈ s.windows) (g : Window → Window) (hg : w.Kept s.prof (g w)) :
    SameTable s (s.updateWindow w.handle g) := by
  refine .of_map s _ fun x hx hd => ?_
  by_cases hh : x.handle = w.handle
  · rw [if_pos hh, hd.eq_of_handle hw hx hh]; exact hg
  · rw [if_neg hh]; exact .refl _ _

/-- Taking a window of the table out leaves the others. -/
theorem State.SlotsDistinct.perm_takeOut {s : State} (hd : s.SlotsDistinct) {w : Window} (hw : w ∈ s.windows) :
    s.windows.Perm (w :: takeOut w.handle s.windows) := by
  have herase : takeOut w.handle s.windows = s.windows.erase w := by
    rw [(List.Nodup.of_map _ hd).erase_eq_filter]
    refine List.filter_congr fun x hx => ?_
    by_cases hh : x.handle = w.handle
    · simp [hd.eq_of_handle hw hx hh]
    · have hne : x ≠ w := fun e => hh (by rw [e])
      rw [bne_iff_ne.2 hh, bne_iff_ne.2 hne]
  rw [herase]
  exact List.perm_cons_erase hw

/-- A window of the table taken out and put back elsewhere, changed to one that keeps it. -/
theorem SameTable.restack (s : State) {w x : Window} (hw : w ∈ s.windows) (hx : w.Kept s.prof x) {l : List Window}
    (hl : l.Perm (x :: takeOut w.handle s.windows)) : SameTable s { s with windows := l } := by
  refine .of_windows s l fun hd => ?_
  have hrest : List.Forall₂ (Window.Kept s.prof) (w :: takeOut w.handle s.windows) (x :: takeOut w.handle s.windows) :=
    .cons hx (List.forall₂_same.2 fun y _ => .refl _ y)
  obtain ⟨m, hm, hpm⟩ := List.perm_comp_forall₂ (hd.perm_takeOut hw) hrest
  exact ⟨m, hm, hl.trans hpm.symm⟩

/-! The shared operations keep the table. -/


/-! ## Records and replies -/

theorem SameTable.post (s : State) (p : Port) (body : EventBody) (h : Option Handle) : SameTable s (s.post p body h) :=
  .of_records (State.post_records s p body h)

theorem SameTable.placeReply (s : State) (p : Port) (r : Reply) : SameTable s (s.placeReply p r) := .of_port s p _

theorem SameTable.foldl {α : Type} (l : List α) (f : State → α → State) (hf : ∀ (s : State) a, SameTable s (f s a)) (s : State) :
    SameTable s (l.foldl f s) := by
  induction l generalizing s with
  | nil => exact .refl s
  | cons a l ih => exact (hf s a).trans (ih _)

/-! ## Exposure, focus and capture -/

/-- The recomputation changes the two computed fields of each window alone (R16, R24). -/
theorem State.exposeFrom_kept (s : State) (prof : Profile) (above : List Rect) (ws : List Window) :
    List.Forall₂ (Window.Kept prof) ws (s.exposeFrom above ws) := by
  induction ws generalizing above with
  | nil => exact .nil
  | cons w ws ih =>
    unfold State.exposeFrom
    split <;> exact .cons ⟨rfl, rfl, rfl, rfl, rfl, id, id⟩ (ih _)

theorem SameTable.recomputeExposure (s : State) : SameTable s s.recomputeExposure :=
  (SameTable.of_windows s _ fun _ => ⟨_, s.exposeFrom_kept s.prof [] s.windows, .refl _⟩).trans
    (.of_records s.recomputeExposure_records)

theorem SameTable.withdrawFocus (s : State) (h : Handle) (owner : Port) (reason : FocusReason) :
    SameTable s (s.withdrawFocus h owner reason) :=
  SameTable.trans .of_rest (.of_records (State.withdrawFocus_records s h owner reason))

theorem SameTable.moveFocus (s : State) (w : Window) : SameTable s (s.moveFocus w) :=
  SameTable.trans .of_rest (.of_records (State.moveFocus_records s w))

theorem SameTable.cancelLapsed (s : State) (p : Port) : SameTable s (s.cancelLapsed p) := by
  rcases State.cancelLapsed_cases s p with ⟨h, -, hr⟩ | ⟨-, hr⟩
  · exact SameTable.trans .of_rest (.of_records hr)
  · rw [hr]; exact .refl s

/-! ## Tones -/

theorem SameTable.chooseTone (s : State) : SameTable s s.chooseTone := .of_rest

theorem SameTable.endTone (s : State) (p : Port) (reason : ToneReason) : SameTable s (s.endTone p reason) := by
  rcases State.endTone_cases s p reason with ⟨-, h⟩ | ⟨u, hr, h⟩
  · rw [h]; exact .refl s
  · rw [h]
    exact ((SameTable.of_port s p _).trans (.of_records hr)).trans (.chooseTone u)

theorem SameTable.endToneIf (s : State) (p : Port) (bands : Band → Bool) (reason : ToneReason) :
    SameTable s (s.endToneIf p bands reason) := by
  unfold State.endToneIf
  split
  · exact .refl s
  · split
    · exact .endTone s p reason
    · exact .refl s

theorem SameTable.silence (s : State) : SameTable s s.silence := .foldl _ _ (fun s p => .endToneIf s p _ _) s

/-! ## Lapse and closing -/

theorem SameTable.closeInput (s : State) (p : Port) : SameTable s (s.closeInput p) := .of_rest

/-- A teardown completes only while the engine has no slice of the port (R117). -/
theorem SameTable.completeTeardown (s : State) (p : Port) (h : s.slice ≠ some p) : SameTable s (s.completeTeardown p) := by
  rcases State.completeTeardown_cases s p with ⟨-, hr⟩ | ⟨-, hr⟩
  · rw [hr]; exact .refl s
  · rw [hr]; exact .of_state s p _ (.inl rfl) (.inr h)

theorem SameTable.teardownNotice (s : State) (p : Port) (h : s.slice ≠ some p) : SameTable s (s.teardownNotice p) :=
  (SameTable.of_map s (Window.ungrant p) fun _ _ _ => ⟨rfl, rfl, rfl, rfl, rfl, id, id⟩).trans (.completeTeardown _ p h)

/-- The recomputation that an entry to CLOSING makes where the port was LIVE leaves the slice in flight (R25). -/
theorem State.recomputeExposure_slice (s : State) : s.recomputeExposure.slice = s.slice := by
  rw [s.recomputeExposure_records.1]

theorem SameTable.enterClosing (s : State) (p : Port) (h : (s.port p).state ≠ .detached) : SameTable s (s.enterClosing p) := by
  have h1 : SameTable s ((s.setPort p (s.port p).close).closeInput p).chooseTone :=
    ((SameTable.of_state s p _ (.inr (.inr h)) (.inl (.inr (.inr rfl)))).trans (.closeInput _ p)).trans (.chooseTone _)
  have h2 (u : State) (b : Bool) : SameTable u (if b then u.recomputeExposure else u) := by
    cases b
    · exact .refl u
    · exact .recomputeExposure u
  have hslice (u : State) (b : Bool) : (if b then u.recomputeExposure else u).slice = u.slice := by
    cases b
    · rfl
    · exact u.recomputeExposure_slice
  unfold State.enterClosing
  split
  · exact h1.trans (h2 _ _)
  · rename_i hs
    refine (h1.trans (h2 _ _)).trans ((SameTable.of_port _ p _).trans (.teardownNotice _ p ?_))
    rw [State.setPort_slice, hslice]
    exact hs

theorem SameTable.lapseFocus (s : State) (p : Port) : SameTable s (s.lapseFocus p) := by
  unfold State.lapseFocus
  split
  · exact .refl s
  · split
    · exact .withdrawFocus s _ p _
    · exact .refl s

theorem SameTable.lapse (s : State) (p : Port) (h : (s.port p).state ≠ .detached) : SameTable s (s.lapse p) :=
  ((((SameTable.of_state s p _ (.inr (.inr h)) (.inl (.inr (.inl rfl)))).trans (.post _ p _ _)).trans
    ((SameTable.lapseFocus _ p).trans (.cancelLapsed _ p))).trans (.endToneIf _ p _ _)).trans (.recomputeExposure _)

/-! ## The arbiter and the end of a command -/

/-- A grant goes to a port that is LIVE (R47). -/
theorem State.eligible_live {s : State} {p : Port} (h : s.eligible p = true) : (s.port p).state = .live := by
  simp only [State.eligible, Bool.and_eq_true, beq_iff_eq] at h
  exact h.1

/-- The engine granted to a port with a session, or given back. -/
theorem SameTable.of_slice {s t : State}
    (ht : t = { s with slice := t.slice, urgentNext := t.urgentNext, normalNext := t.normalNext, urgentRun := t.urgentRun })
    (hs : ∀ p, t.slice = some p → (s.port p).state.engaged) : SameTable s t := by
  have hport : ∀ p, t.port p = s.port p := fun p => by rw [ht]; rfl
  have hd : t.device = s.device := by rw [ht]
  refine ⟨hd, by rw [ht], by rw [ht], by rw [ht], fun _ => by rw [ht]; exact .refl _ _, fun p => by rw [hport],
    fun p => by rw [hport], fun h => ⟨fun hr p => ?_, fun p hp => ?_⟩⟩
  · rw [hport]; exact h.1 (hd ▸ hr) p
  · rw [hport]; exact hs p hp

theorem SameTable.arbitrate (s : State) : SameTable s s.arbitrate := by
  rcases s.arbitrate_cases with h | ⟨-, p, he, h⟩
  · rw [h]; exact .refl s
  · refine .of_slice s.arbitrate_frame fun q hq => ?_
    have hqp : p = q := by
      rcases h with ⟨-, run, h⟩ | ⟨-, h⟩ <;> rw [h] at hq <;> exact Option.some.inj hq
    exact .inl (hqp ▸ State.eligible_live he)

theorem SameTable.endCommand (s : State) (p : Port) (c : QCmd) (st : Status) (res : ResultPart) (cells : Nat) :
    SameTable s (s.endCommand p c st res cells) :=
  (SameTable.of_port s p _).trans (.of_records (State.endCommand_records s p c st res cells))

theorem SameTable.endClosingSlice (s : State) (p : Port) (h : s.slice = none) : SameTable s (s.endClosingSlice p) :=
  ((SameTable.of_port s p _).trans (.chooseTone _)).trans
    (.teardownNotice _ p (fun e => by rw [show s.slice = some p from e] at h; cases h))

/-! Every step is a sequence of changes that keep the table, creations, removals, resets and loads of a profile. -/


/-! ## The changes of a step -/

/-- What a CREATE_WINDOW has done when exposure is about to be recomputed (R28): the new window stands at the top of its band with
strips of the available part, every cell of which is the clear cell, and its owner's holdings have risen. -/
def State.created (s : State) (p : Port) (slot : Nat) (o : CreateOperands) : State :=
  { s with
    available := s.available.drop (stripsOf o.sc o.sr)
    memory := Memory.fill s.memory (s.available.take (stripsOf o.sc o.sr)) o.clear
    windows := insertTop (newWindow ⟨slot, s.generationOf slot⟩ p o (s.available.take (stripsOf o.sc o.sr))) s.windows }.setPort p
    { s.port p with windowsHeld := (s.port p).windowsHeld + 1, stripsHeld := (s.port p).stripsHeld + stripsOf o.sc o.sr }

theorem State.createAt_eq (s : State) (p : Port) (slot : Nat) (o : CreateOperands) :
    s.createAt p slot o = ((s.created p slot o).recomputeExposure, .handle ⟨slot, s.generationOf slot⟩) := rfl

/-- A CREATE_WINDOW passes every check of R12 and R27 with the lowest free slot. -/
structure CreateAllowed (s : State) (p : Port) (slot : Nat) (o : CreateOperands) : Prop where
  band : o.band.rank ≤ (s.portProf p).maxBand.rank
  geometry : geometryOk s.prof o.sc o.sr o.view o.offCol o.offRow = true
  windowQuota : (s.port p).windowsHeld + 1 ≤ (s.portProf p).windowQuota
  free : s.freeSlot = some slot
  stripQuota : (s.port p).stripsHeld + stripsOf o.sc o.sr ≤ (s.portProf p).stripQuota
  space : stripsOf o.sc o.sr ≤ s.available.length

/-- An elementary change of the window table, the strip pool, the holdings or the port states. -/
inductive TableChange : State → State → Prop
  /-- Any change that keeps them in agreement as they are. -/
  | same {s t : State} (h : SameTable s t) : TableChange s t
  /-- A CREATE_WINDOW in a slice of its port (R28). -/
  | create {s : State} {p : Port} {slot : Nat} {o : CreateOperands} (h : CreateAllowed s p slot o) (hs : s.slice = some p) :
      TableChange s (s.created p slot o)
  /-- A window removed (R29). -/
  | remove {s : State} {w : Window} (hw : w ∈ s.windows) (f : Option Handle) (c : Capture) : TableChange s (s.removed w f c)
  /-- A device reset or its end (R178). -/
  | reset {s : State} (d : DeviceState) (hd : d ≠ .ready) (is : List Instr) :
      TableChange s { State.reset with device := d, pending := is }
  /-- A profile put in force at the end of its load (R182). -/
  | load {s : State} (e : Profile × Bool) (hs : s.device = .starting) : TableChange s (s.takeProfile e)

/-- A sequence of elementary changes. -/
abbrev TableChanges : State → State → Prop := Relation.ReflTransGen TableChange

theorem TableChange.changes {s t : State} (h : TableChange s t) : TableChanges s t := .single h

theorem SameTable.changes {s t : State} (h : SameTable s t) : TableChanges s t := .single (.same h)

theorem TableChanges.same {s t u : State} (h : TableChanges s t) (h' : SameTable t u) : TableChanges s u := h.tail (.same h')

/-! ## Removals -/

theorem State.removeWindow_changes {s : State} {w : Window} (hw : w ∈ s.windows) : TableChanges s (s.removeWindow w) := by
  obtain ⟨u, c, -, hr, h⟩ := s.removeWindow_cases w
  rw [h]
  exact (TableChange.remove hw _ c).changes.same ((SameTable.of_records hr).trans (.recomputeExposure u))

theorem State.removeWindow_slice (s : State) (w : Window) : (s.removeWindow w).slice = s.slice := by
  obtain ⟨u, c, -, hr, h⟩ := s.removeWindow_cases w
  rw [h, State.recomputeExposure_slice, hr.1]
  rfl

theorem State.teardownStep_changes (s : State) (p : Port) (h : s.slice ≠ some p) : TableChanges s (s.teardownStep p) := by
  unfold State.teardownStep
  split
  · exact .refl
  · rename_i w hw
    refine (State.removeWindow_changes (List.mem_of_find?_eq_some hw)).same (.completeTeardown _ p ?_)
    rwa [State.removeWindow_slice]

/-- The engine has no slice of a port whose teardown is under way (R117). -/
theorem State.slice_of_tearingDown {s : State} {p : Port} (h : s.tearingDown p = true) : s.slice ≠ some p := by
  simp only [State.tearingDown, Bool.and_eq_true, bne_iff_ne] at h
  exact h.2

theorem State.takeWaitingRemoval_changes (s : State) : TableChanges s s.takeWaitingRemoval := by
  rcases s.takeWaitingRemoval_cases with ⟨-, h⟩ | ⟨p, -, h⟩
  · rw [h]
  · have h0 : TableChanges s { s with waitingRemoval := none } := .single (.same .of_rest)
    rw [h]
    split
    · rename_i ht
      exact h0.trans (State.teardownStep_changes _ p (State.slice_of_tearingDown ht))
    · exact h0

/-! ## Slices -/

theorem finishSlice_changes {s : State} (p : Port) (c : QCmd) {e : SliceEnd} (h : TableChanges s e.state) :
    TableChanges s (finishSlice p c e) := by
  have h0 : SameTable e.state { e.state with slice := none } := .of_slice rfl (by simp)
  unfold finishSlice
  refine Relation.ReflTransGen.trans (TableChanges.same (h.same (h0.trans ?_)) (.arbitrate _)) (State.takeWaitingRemoval_changes _)
  split
  · exact .endClosingSlice _ p rfl
  · split
    · exact .endCommand _ p c _ _ _
    · split
      · exact .endCommand _ p c _ _ _
      · exact .of_port _ p _
      · exact .of_port _ p _

theorem State.runSlice_changes (s : State) (p : Port) (k : CommandKind) (work : QCmd → State → SliceEnd)
    (h : ∀ c, s.slice = some p → TableChanges s (work c s).state) : TableChanges s (s.runSlice p k work) := by
  rcases s.runSlice_cases p k work with hr | ⟨c, ⟨hs, -⟩, -, hr⟩
  · rw [hr]
  · rw [hr]
    refine finishSlice_changes p c ?_
    split
    · exact .refl
    · exact h c hs

/-- A one-slice command changes what its effect changes, or nothing at a failed check. -/
theorem oneSlice_changes {s : State} {e : Effect} (h : ∀ s' res, e = .ok (s', res) → TableChanges s s') :
    TableChanges s (oneSlice s e).state := by
  cases e with
  | error st => exact .refl
  | ok r => exact h _ _ rfl

/-- A command whose effect takes place names a window of the table, its port's own. -/
theorem ownWindowAt_ok {s : State} {p : Port} {c : QCmd} {i n : Nat} {effect : Window → Effect} {r : State × ResultPart}
    (h : ownWindowAt s p c i n effect = .ok r) : ∃ w ∈ s.windows, w.owner = p ∧ effect w = .ok r := by
  rcases ownWindowAt_cases s p c i n effect with ⟨-, he⟩ | ⟨w, hw, ⟨-, he⟩ | ⟨-, -, he⟩ | ⟨ho, -, he⟩⟩ <;> rw [he] at h
  · cases h
  · cases h
  · cases h
  · exact ⟨w, State.mem_of_windowOf hw, ho, h⟩

/-! ## CREATE_WINDOW -/

/-- A CREATE_WINDOW ends at a check, or is allowed and takes effect. -/
theorem State.createWindow_cases (s : State) (p : Port) (c : QCmd) :
    (∃ st, s.createWindow p c = .error st)
      ∨ ∃ o slot, createOperands c.payload = some o ∧ CreateAllowed s p slot o ∧ s.createWindow p c = .ok (s.createAt p slot o) := by
  unfold State.createWindow
  cases ho : createOperands c.payload with
  | none => exact .inl ⟨_, rfl⟩
  | some o =>
    simp only
    split
    · exact .inl ⟨_, rfl⟩
    split
    · exact .inl ⟨_, rfl⟩
    split
    · exact .inl ⟨_, rfl⟩
    split
    · exact .inl ⟨_, rfl⟩
    split
    · exact .inl ⟨_, rfl⟩
    split
    · exact .inl ⟨_, rfl⟩
    rename_i hb hg hw _ slot hf hq hn
    refine .inr ⟨o, slot, rfl, ⟨?_, ?_, ?_, hf, ?_, ?_⟩, rfl⟩
    · omega
    · simpa using hg
    · omega
    · omega
    · omega

theorem createWindowSlice_changes (s : State) (p : Port) :
    TableChanges s (s.runSlice p .createWindow (fun c s => oneSlice s (s.createWindow p c))) :=
  State.runSlice_changes s p _ _ fun c hs => oneSlice_changes fun s' res he => by
    rcases s.createWindow_cases p c with ⟨st, h⟩ | ⟨o, slot, -, ha, h⟩
    · rw [h] at he; cases he
    · rw [h, State.createAt_eq] at he
      cases he
      exact (TableChange.create ha hs).changes.same (.recomputeExposure _)

/-! ## The other window commands -/

theorem State.placeWindow_changes {s s' : State} {c : QCmd} {w : Window} {res : ResultPart} (hw : w ∈ s.windows)
    (h : s.placeWindow c w = .ok (s', res)) : TableChanges s s' := by
  unfold State.placeWindow at h
  simp only at h
  split at h
  · rename_i hg
    cases h
    exact ((SameTable.updateWindow s hw _ ⟨rfl, rfl, rfl, rfl, rfl, fun _ => hg, id⟩).trans (.recomputeExposure _)).changes
  · cases h

theorem State.setBand_changes {s s' : State} {p : Port} {c : QCmd} {w : Window} {res : ResultPart} (hw : w ∈ s.windows)
    (h : s.setBand p c w = .ok (s', res)) : TableChanges s s' := by
  unfold State.setBand at h
  split at h
  · cases h
  · rename_i b _
    split at h
    · cases h
    · cases h
      refine SameTable.changes (.trans ?_ (.recomputeExposure _))
      exact .restack s hw (x := { w with band := b }) ⟨rfl, rfl, rfl, rfl, rfl, id, id⟩ (insertTop_perm _ _)

theorem SameTable.setModes {s : State} {w : Window} (hw : w ∈ s.windows) (o : ModeOperands) : SameTable s (s.setModes w o) := by
  have h1 : SameTable s (s.updateWindow w.handle (fun w => w.withModes o)) :=
    .updateWindow s hw _ ⟨rfl, rfl, rfl, rfl, rfl, id, id⟩
  unfold State.setModes
  simp only
  split <;> split
  · exact h1.trans (.recomputeExposure _)
  · exact (h1.trans (.withdrawFocus _ _ _ _)).trans (.recomputeExposure _)
  · exact h1
  · exact h1.trans (.withdrawFocus _ _ _ _)

theorem State.grantRead_changes {s s' : State} {c : QCmd} {w : Window} {res : ResultPart} (hw : w ∈ s.windows)
    (h : s.grantRead c w = .ok (s', res)) : TableChanges s s' := by
  unfold State.grantRead at h
  split at h
  · cases h
  · split at h
    · cases h
    · split at h
      · cases h
      · split at h
        · cases h; exact .refl
        · cases h
          exact (SameTable.updateWindow s hw _ ⟨rfl, rfl, rfl, rfl, rfl, id, id⟩).changes

/-! The other commands and events, and the step. -/


/-! ## Text -/

theorem TextRun.advance_kept (prof : Profile) (r : TextRun) : r.win.Kept prof r.advance.win := by
  unfold TextRun.advance
  simp only
  split
  · rename_i hrow
    exact ⟨rfl, rfl, rfl, rfl, rfl, id, fun h => ⟨Nat.zero_lt_of_lt h.1, hrow⟩⟩
  · split
    · exact ⟨rfl, rfl, rfl, rfl, rfl, id, fun h => ⟨Nat.zero_lt_of_lt h.1, h.2⟩⟩
    · exact ⟨rfl, rfl, rfl, rfl, rfl, id, fun h => ⟨Nat.zero_lt_of_lt h.1, Nat.zero_lt_of_lt h.2⟩⟩

theorem TextRun.glyph_kept (prof : Profile) (r : TextRun) (code : Nat) : r.win.Kept prof (r.glyph code).win := by
  unfold TextRun.glyph
  simp only
  split
  · rename_i hcol
    exact ⟨rfl, rfl, rfl, rfl, rfl, id, fun h => ⟨hcol, h.2⟩⟩
  · split <;> exact .refl _ _

theorem TextRun.item_kept (prof : Profile) (r : TextRun) (it : TextItem) : r.win.Kept prof (r.item it).win := by
  match it with
  | .glyph code =>
    unfold TextRun.item
    simp only
    split
    · exact .refl _ _
    · exact r.glyph_kept prof code
  | .newLine => exact TextRun.advance_kept prof { r with next := r.next + 1, discarding := false, overflowDone := false }
  | .return => exact ⟨rfl, rfl, rfl, rfl, rfl, id, fun h => ⟨Nat.zero_lt_of_lt h.1, h.2⟩⟩

/-- The units of a text slice move the text cursor within the surface and keep the rest of the window (R72 to R75). -/
theorem textLoop_kept (prof : Profile) (items : List TextItem) (n : Nat) (r : TextRun) :
    r.win.Kept prof (textLoop items n r).win := by
  induction n generalizing r with
  | zero => exact .refl _ _
  | succ n ih =>
    unfold textLoop
    split
    · split
      · exact .refl _ _
      · exact (r.advance_kept prof).trans (ih _)
    · split
      · exact .refl _ _
      · split
        · exact .refl _ _
        · exact (r.item_kept prof _).trans (ih _)

theorem State.writeText_changes {s : State} {w : Window} (hw : w ∈ s.windows) (pr : Progress) (items : List TextItem) :
    TableChanges s (s.writeText pr w items).state := by
  have key (r : TextRun) (hr : w.Kept s.prof r.win) : SameTable s ({ s with memory := r.memory }.updateWindow w.handle
      (fun x => { x with curCol := r.win.curCol, curRow := r.win.curRow })) :=
    SameTable.trans (t := { s with memory := r.memory }) .of_rest
      (.updateWindow { s with memory := r.memory } hw (fun x => { x with curCol := r.win.curCol, curRow := r.win.curRow })
        ⟨rfl, rfl, rfl, rfl, rfl, id, fun h => ⟨hr.sc ▸ (hr.cursor h).1, hr.sr ▸ (hr.cursor h).2⟩⟩)
  have hkept := textLoop_kept s.prof items textFuel ⟨w, s.memory, pr.next, pr.owed, pr.discarding, pr.overflowDone, 0, 0, false⟩
  unfold State.writeText
  simp only
  split <;> exact (key _ hkept).changes

/-! ## Drawing -/

theorem State.rectSlice_changes (s : State) (pr : Progress) (backward : Bool) (area : Nat) (write : Memory → Nat → Memory) :
    TableChanges s (s.rectSlice pr backward area write).state := by
  unfold State.rectSlice
  simp only
  split <;> exact .single (.same .of_rest)

theorem State.copySlice_changes (s : State) (pr : Progress) (w src : Window) (pl : List Byte) (backward : Bool) :
    TableChanges s (s.copySlice pr w src pl backward).state := by
  unfold State.copySlice
  exact s.rectSlice_changes pr backward _ _

/-- A drawing slice changes what its work on a window of the table changes, or nothing where the handle does not resolve. -/
theorem ownDrawing_changes {s : State} {p : Port} {c : QCmd} {work : Progress → Window → SliceEnd}
    (h : ∀ pr w, w ∈ s.windows → TableChanges s (work pr w).state) : TableChanges s (ownDrawing s p c work).state := by
  unfold ownDrawing State.resolveOwn
  cases hw : s.windowOf (handleAt c.payload 0) with
  | none => exact .refl
  | some w =>
    simp only
    split
    · rename_i w' hok
      split at hok
      · cases hok
      · cases hok; exact .refl
    · rename_i w' hok
      split at hok
      · cases hok; exact h _ _ (State.mem_of_windowOf hw)
      · cases hok

/-! ## Focus, tones and the frame -/

theorem SameTable.releaseFocus (s : State) (p : Port) : SameTable s (s.releaseFocus p) := by
  unfold State.releaseFocus
  split
  · exact .refl s
  · split
    · exact .withdrawFocus s _ p _
    · exact .refl s

theorem SameTable.beginTone (s : State) (p : Port) (o : ToneOperands) : SameTable s (s.beginTone p o) :=
  (SameTable.of_port s p { s.port p with tone := some (newTone o s.toneSeq) }).trans (.trans .of_rest (.chooseTone _))

theorem SameTable.startTone (s : State) (p : Port) (o : ToneOperands) : SameTable s (s.startTone p o) := by
  have h1 : SameTable s ((s.endTone p .replaced).beginTone p o) := (SameTable.endTone s p _).trans (.beginTone _ p o)
  unfold State.startTone
  simp only
  split
  · exact h1.trans (.endTone _ p _)
  · exact h1

theorem SameTable.completeMark (s : State) (p : Port) : SameTable s (s.completeMark p) := by
  unfold State.completeMark
  split
  · split
    · exact .refl s
    · exact .endCommand s p _ _ _ _
  · exact .refl s

/-- A frame start moves the retiring strips to the available part (R11). -/
theorem SameTable.frameStart (s : State) : SameTable s s.frameStart := by
  unfold State.frameStart
  refine SameTable.trans (t := { s with
      frameNumber := s.frameNumber + 1, blinkCount := (s.blinkCount + 1) % 60, latched := some s.composition
      available := s.available ++ s.retiring, retiring := [], brightness := s.effectiveBrightness s.composition, scanRow := 0 }) ?_ ?_
  · exact ⟨rfl, rfl, rfl, .of_eq (List.append_nil _), fun _ => .refl _ _, fun _ => rfl, fun _ => rfl,
      fun h => h.congr rfl (fun _ => rfl) rfl⟩
  · exact (SameTable.foldl _ _ .completeMark _).trans (.arbitrate _)

/-! ## Links -/

theorem SameTable.nak (s : State) (p : Port) (tag : Byte) (reason : NakReason) : SameTable s (s.nak p tag reason) :=
  .placeReply s p _

theorem SameTable.ack (s : State) (p : Port) (tag : Byte) (body : ReplyBody) : SameTable s (s.ack p tag body) := .placeReply s p _

theorem SameTable.answer {s u : State} (p : Port) (tag : Byte) (h : s.device = .ready → SameTable s u) :
    SameTable s (s.answer p tag u) := by
  unfold State.answer
  split
  · exact .refl s
  · exact .nak s p tag _
  · exact h ‹_›

theorem SameTable.takeAttach (s : State) (p : Port) (tag : Byte) (hd : s.device = .ready) : SameTable s (s.takeAttach p tag) := by
  unfold State.takeAttach
  split
  · exact .nak s p tag _
  · exact (SameTable.of_state s p _ (.inr (.inl hd)) (.inl (.inl rfl))).trans (.ack _ p tag _)
  · exact .nak s p tag _
  · exact .nak s p tag _
  · exact .nak s p tag _

theorem SameTable.takeRenew (s : State) (p : Port) (tag : Byte) (hd : s.device = .ready) : SameTable s (s.takeRenew p tag) := by
  have hrenew (n : Nat) : SameTable s (s.setPort p ((s.port p).renewLease n)) :=
    .of_state s p _ (.inr (.inl hd)) (.inl (.inl rfl))
  unfold State.takeRenew
  simp only
  split
  · exact .nak s p tag _
  · exact .nak s p tag _
  · exact (hrenew _).trans (.ack _ p tag _)
  · exact (((hrenew _).trans (.recomputeExposure _)).trans (.ack _ p tag _)).trans (.arbitrate _)
  · exact .nak s p tag _

theorem SameTable.takeDetach (s : State) (p : Port) (tag : Byte) : SameTable s (s.takeDetach p tag) := by
  unfold State.takeDetach
  simp only
  split
  · exact .nak s p tag _
  · exact .nak s p tag _
  · exact (SameTable.enterClosing s p (by simp [*])).trans (.ack _ p tag _)
  · exact (SameTable.enterClosing s p (by simp [*])).trans (.ack _ p tag _)
  · exact .ack s p tag _

theorem SameTable.takeReadEvents (s : State) (p : Port) (tag : Byte) : SameTable s (s.takeReadEvents p tag) := by
  unfold State.takeReadEvents
  split
  · exact .nak s p tag _
  · exact .nak s p tag _
  · exact .of_port s p _
  · exact .of_port s p _
  · exact .nak s p tag _

theorem SameTable.abortQueue (s : State) (p : Port) : SameTable s (s.abortQueue p) := by
  have hend : SameTable s (match (s.port p).queue with
      | [] => s
      | c :: _ => (s.setPort p (s.port p).onlyHead).endCommand p c .aborted .none (s.port p).progress.cellsDone) := by
    split
    · exact .refl s
    · exact (SameTable.of_port s p _).trans (.endCommand _ p _ _ _ _)
  unfold State.abortQueue
  split
  · exact .refl s
  · exact .of_port s p _
  · exact .of_port s p _
  · exact hend
  · exact hend

theorem SameTable.abortTaken (s : State) (p : Port) (tag : Byte) : SameTable s (s.abortTaken p tag) :=
  ((SameTable.of_port s p _).trans (.abortQueue _ p)).trans (.ack _ p tag _)

theorem SameTable.takeAbort (s : State) (p : Port) (tag : Byte) : SameTable s (s.takeAbort p tag) := by
  unfold State.takeAbort
  split
  · exact .nak s p tag _
  · exact .nak s p tag _
  · exact .abortTaken s p tag
  · exact .abortTaken s p tag
  · exact .nak s p tag _

theorem SameTable.enqueue (s : State) (p : Port) (kind : CommandKind) (flags tag : Byte) (payload : List Byte) :
    SameTable s (s.enqueue p kind flags tag payload) := by
  unfold State.enqueue
  simp only
  split
  · exact .placeReply s p _
  · split
    · exact .nak s p tag _
    · exact ((SameTable.of_port s p _).trans (.ack _ p tag _)).trans (.arbitrate _)

theorem SameTable.takeCommand (s : State) (p : Port) (kind : CommandKind) (flags tag : Byte) (payload : List Byte) :
    SameTable s (s.takeCommand p kind flags tag payload) := by
  unfold State.takeCommand
  split
  · exact .nak s p tag _
  · exact .nak s p tag _
  · exact .enqueue s p kind flags tag payload
  · exact .nak s p tag _
  · exact .nak s p tag _

theorem SameTable.takeFrame (s : State) (p : Port) (kind : FrameKind) (flags tag : Byte) (payload : List Byte) :
    SameTable s (s.takeFrame p kind flags tag payload) := by
  refine .answer p tag fun hd => ?_
  cases kind with
  | attach => exact .takeAttach s p tag hd
  | detach => exact .takeDetach s p tag
  | renew => exact .takeRenew s p tag hd
  | readEvents => exact .takeReadEvents s p tag
  | status => exact .ack s p tag _
  | abort => exact .takeAbort s p tag
  | queued k => exact .takeCommand s p k flags tag payload

theorem SameTable.failSend (s : State) (p : Port) (reason : NakReason) (tag : Byte) : SameTable s (s.failSend p reason tag) := by
  refine SameTable.trans (t := s.setPort p ((s.port p).countError reason)) ?_ (.nak _ p tag reason)
  cases reason <;> exact .of_port s p _

theorem SameTable.send (s : State) (p : Port) (bytes : List Byte) : SameTable s (s.send p bytes) := by
  unfold State.send
  split
  · exact .refl s
  · split
    · exact .failSend s p _ _
    · exact .takeFrame s p _ _ _ _

/-- A FETCH changes neither a port's state nor its holdings (R171). -/
theorem PortRec.fetch_keeps (q : PortRec) (part : FetchPart) :
    (q.fetch part).state = q.state ∧ (q.fetch part).windowsHeld = q.windowsHeld ∧ (q.fetch part).stripsHeld = q.stripsHeld := by
  have hend (q : PortRec) (n : Nat) : (q.endFetch n).state = q.state ∧ (q.endFetch n).windowsHeld = q.windowsHeld
      ∧ (q.endFetch n).stripsHeld = q.stripsHeld := by
    unfold PortRec.endFetch
    split
    · exact ⟨rfl, rfl, rfl⟩
    · simp only
      split <;> exact ⟨rfl, rfl, rfl⟩
  cases part with
  | whole n => exact hend _ n
  | lead => exact ⟨rfl, rfl, rfl⟩
  | rise n => exact hend _ n

theorem SameTable.fetch (s : State) (p : Port) (part : FetchPart) : SameTable s (s.fetch p part) := by
  obtain ⟨h1, h2, h3⟩ := (s.port p).fetch_keeps part
  unfold State.fetch
  split
  · exact .refl s
  · exact .of_port s p _ h1 h2 h3

theorem SameTable.transaction (s : State) (p : Port) (bytes : List Byte) : SameTable s (s.transaction p bytes) := by
  rcases s.transaction_cases p bytes with ⟨rest, -, h⟩ | ⟨rest, -, h⟩ | ⟨-, -, h⟩ <;> rw [h]
  · exact .send s p rest
  · exact .fetch s p _
  · split
    · exact .refl s
    · exact .of_port s p _

/-! ## Inputs -/

theorem SameTable.pressFocus (s : State) (w : Window) : SameTable s (s.pressFocus w) := by
  unfold State.pressFocus
  split
  · exact .moveFocus s w
  · exact .refl s

theorem SameTable.routePress (s : State) (q : Pixel) : SameTable s (s.routePress q) := by
  unfold State.routePress
  split
  · exact .of_rest
  · exact .trans (.trans .of_rest (.post _ _ _ _)) (.pressFocus _ _)

theorem SameTable.routeMove (s : State) (q : Pixel) : SameTable s (s.routeMove q) := by
  unfold State.routeMove
  split
  · exact .post s _ _ _
  · exact .refl s

theorem SameTable.routeRelease (s : State) (q : Pixel) : SameTable s (s.routeRelease q) := by
  unfold State.routeRelease
  split
  · exact .trans .of_rest (.post _ _ _ _)
  · exact .of_rest

theorem SameTable.contactUp (s : State) (q : Pixel) : SameTable s (s.contactUp q) := by
  unfold State.contactUp
  split
  · exact .of_rest
  · exact .trans .of_rest (.routePress _ q)

theorem SameTable.contactDown (s : State) (q : Pixel) : SameTable s (s.contactDown q) := by
  unfold State.contactDown
  split
  · exact .trans .of_rest (.routeMove _ q)
  · exact .of_rest

theorem SameTable.noContactDown (s : State) : SameTable s s.noContactDown := by
  unfold State.noContactDown
  split
  · exact .of_rest
  · split
    · exact .of_rest
    · exact .trans .of_rest (.routeRelease _ _)

theorem SameTable.sampleTouch (s : State) (reading : TouchReading) : SameTable s (s.sampleTouch reading) := by
  unfold State.sampleTouch
  split
  · exact .contactUp s _
  · exact .contactDown s _
  · exact .of_rest
  · exact .noContactDown s

theorem SameTable.setKey (s : State) (k : KeyId) (r : KeyRec) : SameTable s (s.setKey k r) := .of_rest

theorem SameTable.postKey (s : State) (c : KeyCapture) (body : EventBody) : SameTable s (s.postKey c body) :=
  .foldl _ _ (fun s p => .post s p body c.handle) s

theorem SameTable.routeDown (s : State) (k : KeyId) : SameTable s (s.routeDown k) := by
  unfold State.routeDown
  simp only
  split
  · exact ((SameTable.setKey s k _).trans (.postKey _ _ _)).trans (.silence _)
  · exact (SameTable.setKey s k _).trans (.postKey _ _ _)

theorem SameTable.postCapture (s : State) (k : KeyId) (body : EventBody) : SameTable s (s.postCapture k body) := by
  unfold State.postCapture
  split
  · exact .refl s
  · exact .postKey s _ body

theorem SameTable.acceptDown (s : State) (k : KeyId) : SameTable s (s.acceptDown k) :=
  (SameTable.setKey s k _).trans (.routeDown _ k)

theorem SameTable.acceptUp (s : State) (k : KeyId) : SameTable s (s.acceptUp k) :=
  (SameTable.postCapture s k _).trans (.setKey _ k _)

theorem SameTable.readKey (s : State) (k : KeyId) (pressed : Bool) : SameTable s (s.readKey k pressed) := by
  unfold State.readKey
  simp only
  split
  · exact .setKey s k _
  · split
    · exact .setKey s k _
    · split
      · exact .acceptDown s k
      · exact .acceptUp s k

/-! ## Timers and start-up -/

theorem SameTable.expireLease (s : State) (p : Port) (h : (s.port p).state ≠ .detached) : SameTable s (s.expireLease p) := by
  unfold State.expireLease
  split
  · exact .enterClosing s p h
  · exact .lapse s p h

theorem State.comeRemoval_changes (s : State) (p : Port) (h : s.slice ≠ some p) : TableChanges s (s.comeRemoval p) := by
  rcases s.comeRemoval_cases p with ⟨-, hr⟩ | ⟨-, hr⟩ <;> rw [hr]
  · exact .single (.same .of_rest)
  · exact State.teardownStep_changes s p h

theorem State.becomeReady_changes (s : State) (image : Option (List Byte)) (first : TouchReading) (h : s.device = .starting) :
    TableChanges s (s.becomeReady image first) := by
  have h1 := (TableChange.load (loadedProfile image) h).changes.same (.frameStart _)
  unfold State.becomeReady
  simp only
  split
  · exact h1.same (.sampleTouch _ first)
  · exact h1

theorem State.port_advanceTime (s : State) (p : Port) : s.advanceTime.port p = (s.port p).tick := by
  simp [State.port, State.advanceTime, Vector.get_eq_getElem]

theorem SameTable.advanceTime (s : State) : SameTable s s.advanceTime :=
  ⟨rfl, rfl, rfl, .refl _, fun _ => .refl _ _, fun p => by rw [State.port_advanceTime]; rfl, fun p => by rw [State.port_advanceTime]; rfl,
    fun h => h.congr rfl (fun p => by rw [State.port_advanceTime]; rfl) rfl⟩

theorem SameTable.idle (s : State) : SameTable s s.idle := by
  unfold State.idle
  split
  · exact .refl s
  · split
    · exact .of_rest
    · exact (SameTable.advanceTime s).trans .of_rest

/-! ## Every step is a sequence of changes -/

theorem TableChanges.ite {s t : State} (c : Prop) [Decidable c] (h : c → TableChanges s t) :
    TableChanges s (if c then t else s) := by
  split
  · exact h ‹_›
  · exact .refl

/-- A meaning has a next state, which a sequence of changes reaches. -/
abbrev Reaches (s : State) (o : Host.Outcome State Fault Refusal) : Prop := ∃ t, o = .next t ∧ TableChanges s t

theorem execDestroyWindow_changes (s : State) (p : Port) : Reaches s (execDestroyWindow p s) := by
  refine ⟨_, rfl, s.runSlice_changes p _ _ fun c _ => oneSlice_changes fun s' res he => ?_⟩
  obtain ⟨w, hw, -, he⟩ := ownWindowAt_ok he
  cases he
  exact State.removeWindow_changes hw

theorem execPlaceWindow_changes (s : State) (p : Port) : Reaches s (execPlaceWindow p s) := by
  refine ⟨_, rfl, s.runSlice_changes p _ _ fun c _ => oneSlice_changes fun s' res he => ?_⟩
  obtain ⟨w, hw, -, he⟩ := ownWindowAt_ok he
  exact State.placeWindow_changes hw he

theorem execShowWindow_changes (s : State) (p : Port) : Reaches s (execShowWindow p s) := by
  refine ⟨_, rfl, s.runSlice_changes p _ _ fun c _ => oneSlice_changes fun s' res he => ?_⟩
  obtain ⟨w, hw, -, he⟩ := ownWindowAt_ok he
  cases he
  exact ((SameTable.updateWindow s hw (fun w => { w with shown := true }) ⟨rfl, rfl, rfl, rfl, rfl, id, id⟩).trans
    (.recomputeExposure _)).changes

theorem execHideWindow_changes (s : State) (p : Port) : Reaches s (execHideWindow p s) := by
  refine ⟨_, rfl, s.runSlice_changes p _ _ fun c _ => oneSlice_changes fun s' res he => ?_⟩
  obtain ⟨w, hw, -, he⟩ := ownWindowAt_ok he
  cases he
  exact (((SameTable.updateWindow s hw (fun w => { w with shown := false }) ⟨rfl, rfl, rfl, rfl, rfl, id, id⟩).trans
    (.withdrawFocus _ _ _ _)).trans (.recomputeExposure _)).changes

theorem execRaiseWindow_changes (s : State) (p : Port) : Reaches s (execRaiseWindow p s) := by
  refine ⟨_, rfl, s.runSlice_changes p _ _ fun c _ => oneSlice_changes fun s' res he => ?_⟩
  obtain ⟨w, hw, -, he⟩ := ownWindowAt_ok he
  cases he
  exact ((SameTable.restack s hw (.refl _ w) (insertTop_perm _ _)).trans (.recomputeExposure _)).changes

theorem execLowerWindow_changes (s : State) (p : Port) : Reaches s (execLowerWindow p s) := by
  refine ⟨_, rfl, s.runSlice_changes p _ _ fun c _ => oneSlice_changes fun s' res he => ?_⟩
  obtain ⟨w, hw, -, he⟩ := ownWindowAt_ok he
  cases he
  exact ((SameTable.restack s hw (.refl _ w) (insertBottom_perm _ _)).trans (.recomputeExposure _)).changes

theorem execSetBand_changes (s : State) (p : Port) : Reaches s (execSetBand p s) := by
  refine ⟨_, rfl, s.runSlice_changes p _ _ fun c _ => oneSlice_changes fun s' res he => ?_⟩
  obtain ⟨w, hw, -, he⟩ := ownWindowAt_ok he
  exact State.setBand_changes hw he

theorem execSetWindowModes_changes (s : State) (p : Port) : Reaches s (execSetWindowModes p s) := by
  refine ⟨_, rfl, s.runSlice_changes p _ _ fun c _ => oneSlice_changes fun s' res he => ?_⟩
  obtain ⟨w, hw, -, he⟩ := ownWindowAt_ok he
  split at he
  · cases he
  · cases he
    exact (SameTable.setModes hw _).changes

theorem execGrantRead_changes (s : State) (p : Port) : Reaches s (execGrantRead p s) := by
  refine ⟨_, rfl, s.runSlice_changes p _ _ fun c _ => oneSlice_changes fun s' res he => ?_⟩
  obtain ⟨w, hw, -, he⟩ := ownWindowAt_ok he
  exact State.grantRead_changes hw he

theorem execRevokeRead_changes (s : State) (p : Port) : Reaches s (execRevokeRead p s) := by
  refine ⟨_, rfl, s.runSlice_changes p _ _ fun c _ => oneSlice_changes fun s' res he => ?_⟩
  obtain ⟨w, hw, -, he⟩ := ownWindowAt_ok he
  split at he
  · cases he
  · cases he
    exact (SameTable.updateWindow s hw _ ⟨rfl, rfl, rfl, rfl, rfl, id, id⟩).changes

theorem execQueryWindow_changes (s : State) (p : Port) : Reaches s (execQueryWindow p s) := by
  refine ⟨_, rfl, s.runSlice_changes p _ _ fun c _ => oneSlice_changes fun s' res he => ?_⟩
  split at he
  · cases he
  · split at he
    · cases he; exact .refl
    · cases he

theorem execSetPen_changes (s : State) (p : Port) : Reaches s (execSetPen p s) := by
  refine ⟨_, rfl, s.runSlice_changes p _ _ fun c _ => oneSlice_changes fun s' res he => ?_⟩
  obtain ⟨w, hw, -, he⟩ := ownWindowAt_ok he
  split at he
  · cases he
    exact (SameTable.updateWindow s hw _ ⟨rfl, rfl, rfl, rfl, rfl, id, id⟩).changes
  · cases he

theorem execSetCursor_changes (s : State) (p : Port) : Reaches s (execSetCursor p s) := by
  refine ⟨_, rfl, s.runSlice_changes p _ _ fun c _ => oneSlice_changes fun s' res he => ?_⟩
  obtain ⟨w, hw, -, he⟩ := ownWindowAt_ok he
  split at he
  · rename_i hcur
    cases he
    exact (SameTable.updateWindow s hw _ ⟨rfl, rfl, rfl, rfl, rfl, id, fun _ => hcur⟩).changes
  · cases he

theorem execWriteText_changes (s : State) (p : Port) : Reaches s (execWriteText p s) := by
  refine ⟨_, rfl, s.runSlice_changes p _ _ fun c _ => ownDrawing_changes fun pr w hw => ?_⟩
  split
  · exact .refl
  · exact State.writeText_changes hw pr _

theorem execPutCells_changes (s : State) (p : Port) : Reaches s (execPutCells p s) := by
  refine ⟨_, rfl, s.runSlice_changes p _ _ fun c _ => ownDrawing_changes fun pr w hw => ?_⟩
  split
  · exact .refl
  · split
    · exact s.rectSlice_changes pr _ _ _
    · exact .refl

theorem execFillRect_changes (s : State) (p : Port) : Reaches s (execFillRect p s) := by
  refine ⟨_, rfl, s.runSlice_changes p _ _ fun c _ => ownDrawing_changes fun pr w hw => ?_⟩
  split
  · exact .refl
  · split
    · exact s.rectSlice_changes pr _ _ _
    · exact .refl

theorem execCopyRect_changes (s : State) (p : Port) : Reaches s (execCopyRect p s) := by
  refine ⟨_, rfl, s.runSlice_changes p _ _ fun c _ => ?_⟩
  simp only
  split
  · exact .refl
  · split
    · exact .refl
    · exact s.copySlice_changes _ _ _ _ _

theorem execShiftRect_changes (s : State) (p : Port) : Reaches s (execShiftRect p s) := by
  refine ⟨_, rfl, s.runSlice_changes p _ _ fun c _ => ownDrawing_changes fun pr w hw => ?_⟩
  split
  · exact .refl
  · split
    · exact s.rectSlice_changes pr _ _ _
    · exact .refl

theorem execReadCells_changes (s : State) (p : Port) : Reaches s (execReadCells p s) := by
  refine ⟨_, rfl, s.runSlice_changes p _ _ fun c _ => ?_⟩
  split
  · exact .refl
  · split
    · exact .refl
    · split <;> exact .refl

theorem execLoadGlyphs_changes (s : State) (p : Port) : Reaches s (execLoadGlyphs p s) := by
  refine ⟨_, rfl, s.runSlice_changes p _ _ fun c _ => oneSlice_changes fun s' res he => ?_⟩
  split at he
  · cases he
  · cases he
    exact (SameTable.of_port s p _).changes

theorem execRequestFocus_changes (s : State) (p : Port) : Reaches s (execRequestFocus p s) := by
  refine ⟨_, rfl, s.runSlice_changes p _ _ fun c _ => oneSlice_changes fun s' res he => ?_⟩
  obtain ⟨w, hw, -, he⟩ := ownWindowAt_ok he
  unfold State.requestFocus at he
  split at he
  · cases he; exact .refl
  · split at he
    · cases he; exact (SameTable.moveFocus s w).changes
    · cases he

theorem execReleaseFocus_changes (s : State) (p : Port) : Reaches s (execReleaseFocus p s) := by
  refine ⟨_, rfl, s.runSlice_changes p _ _ fun c _ => oneSlice_changes fun s' res he => ?_⟩
  split at he
  · cases he; exact (SameTable.releaseFocus s p).changes
  · cases he

theorem execToneStart_changes (s : State) (p : Port) : Reaches s (execToneStart p s) := by
  refine ⟨_, rfl, s.runSlice_changes p _ _ fun c _ => oneSlice_changes fun s' res he => ?_⟩
  split at he
  · cases he
  · split at he
    · cases he
    · cases he; exact (SameTable.startTone s p _).changes

theorem execToneStop_changes (s : State) (p : Port) : Reaches s (execToneStop p s) := by
  refine ⟨_, rfl, s.runSlice_changes p _ _ fun c _ => oneSlice_changes fun s' res he => ?_⟩
  split at he
  · cases he; exact (SameTable.endTone s p _).changes
  · cases he

theorem execSetBrightness_changes (s : State) (p : Port) : Reaches s (execSetBrightness p s) := by
  refine ⟨_, rfl, s.runSlice_changes p _ _ fun c _ => oneSlice_changes fun s' res he => ?_⟩
  split at he
  · cases he
  · cases he
    exact (SameTable.of_port s p _).changes

theorem execFrameMark_changes (s : State) (p : Port) : Reaches s (execFrameMark p s) := by
  refine ⟨_, rfl, s.runSlice_changes p _ _ fun c _ => ?_⟩
  split <;> exact .refl

/-- Every command and event has a next state, which a sequence of changes reaches. -/
theorem exec_changes (i : Instr) (s : State) : Reaches s (exec i s) := by
  cases i with
  | deviceReset => exact ⟨_, rfl, .single (.reset .held (by decide) _)⟩
  | deviceResetEnd => exact ⟨_, rfl, .ite _ fun _ => .single (.reset .starting (by decide) _)⟩
  | profileLoadEnd image first => exact ⟨_, rfl, .ite _ fun h => s.becomeReady_changes image first h⟩
  | nakFraming p bytes => exact ⟨_, rfl, (SameTable.send s p bytes).changes⟩
  | fetch p part => exact ⟨_, rfl, (SameTable.fetch s p part).changes⟩
  | attach p tag => exact ⟨_, rfl, (SameTable.answer p tag (.takeAttach s p tag)).changes⟩
  | renew p tag => exact ⟨_, rfl, (SameTable.answer p tag (.takeRenew s p tag)).changes⟩
  | detach p tag => exact ⟨_, rfl, (SameTable.answer p tag fun _ => .takeDetach s p tag).changes⟩
  | readEvents p tag => exact ⟨_, rfl, (SameTable.answer p tag fun _ => .takeReadEvents s p tag).changes⟩
  | status p tag => exact ⟨_, rfl, (SameTable.answer p tag fun _ => .ack s p tag _).changes⟩
  | abort p tag => exact ⟨_, rfl, (SameTable.answer p tag fun _ => .takeAbort s p tag).changes⟩
  | commandAdmission p kind flags tag payload =>
    refine ⟨_, rfl, SameTable.changes ?_⟩
    split
    · exact .refl s
    · split
      · exact .nak s p tag _
      · exact .answer p tag fun _ => .takeCommand s p kind flags tag payload
  | createWindow p => exact ⟨_, rfl, createWindowSlice_changes s p⟩
  | destroyWindow p => exact execDestroyWindow_changes s p
  | placeWindow p => exact execPlaceWindow_changes s p
  | showWindow p => exact execShowWindow_changes s p
  | hideWindow p => exact execHideWindow_changes s p
  | raiseWindow p => exact execRaiseWindow_changes s p
  | lowerWindow p => exact execLowerWindow_changes s p
  | setBand p => exact execSetBand_changes s p
  | setWindowModes p => exact execSetWindowModes_changes s p
  | grantRead p => exact execGrantRead_changes s p
  | revokeRead p => exact execRevokeRead_changes s p
  | queryWindow p => exact execQueryWindow_changes s p
  | setPen p => exact execSetPen_changes s p
  | setCursor p => exact execSetCursor_changes s p
  | writeText p => exact execWriteText_changes s p
  | putCells p => exact execPutCells_changes s p
  | fillRect p => exact execFillRect_changes s p
  | copyRect p => exact execCopyRect_changes s p
  | shiftRect p => exact execShiftRect_changes s p
  | readCells p => exact execReadCells_changes s p
  | loadGlyphs p => exact execLoadGlyphs_changes s p
  | requestFocus p => exact execRequestFocus_changes s p
  | releaseFocus p => exact execReleaseFocus_changes s p
  | toneStart p => exact execToneStart_changes s p
  | toneStop p => exact execToneStop_changes s p
  | setBrightness p => exact execSetBrightness_changes s p
  | frameMark p => exact execFrameMark_changes s p
  | frameStart => exact ⟨_, rfl, .ite _ fun _ => (SameTable.frameStart s).changes⟩
  | touchSample reading => exact ⟨_, rfl, .ite _ fun _ => (SameTable.sampleTouch s reading).changes⟩
  | pressReport x y => exact ⟨_, rfl, .ite _ fun _ => (SameTable.contactUp s _).changes⟩
  | releaseReport => exact ⟨_, rfl, .ite _ fun _ => (SameTable.noContactDown s).changes⟩
  | keyReading k pressed => exact ⟨_, rfl, .ite _ fun _ => (SameTable.readKey s k pressed).changes⟩
  | downReport k => exact ⟨_, rfl, .ite _ fun _ => (SameTable.acceptDown s k).changes⟩
  | repeatReport k => exact ⟨_, rfl, .ite _ fun _ => ((SameTable.setKey s k _).trans (.postCapture _ k _)).changes⟩
  | upReport k => exact ⟨_, rfl, .ite _ fun _ => (SameTable.acceptUp s k).changes⟩
  | leaseWarning p => exact ⟨_, rfl, .ite _ fun _ => ((SameTable.of_port s p _).trans (.post _ p _ _)).changes⟩
  | leaseExpiry p => exact ⟨_, rfl, .ite _ fun h => (SameTable.expireLease s p (by simp [h.1])).changes⟩
  | graceExpiry p => exact ⟨_, rfl, .ite _ fun h => (SameTable.enterClosing s p (by simp [h.1])).changes⟩
  | teardownRemoval p => exact ⟨_, rfl, .ite _ fun h => s.comeRemoval_changes p (State.slice_of_tearingDown h)⟩
  | toneExpiry p => exact ⟨_, rfl, .ite _ fun _ => (SameTable.endTone s p _).changes⟩
  | tonePhaseChange => exact ⟨_, rfl, .single (.same .of_rest)⟩
  | scanRowFetch =>
    refine ⟨_, rfl, ?_⟩
    split
    · exact .refl
    · exact .ite _ fun _ => .single (.same .of_rest)
  | ignoredTransaction p bytes => exact ⟨_, rfl, (SameTable.transaction s p bytes).changes⟩

/-- Every step is a sequence of changes. -/
theorem step_changes {s t : State} (h : step s = .next t) : TableChanges s t := by
  unfold step at h
  split at h
  · cases h
    exact (SameTable.idle s).changes
  · rename_i i rest _
    obtain ⟨u, hu, hc⟩ := exec_changes i { s with pending := rest }
    rw [hu] at h
    cases h
    exact Relation.ReflTransGen.head (.same .of_rest) hc

/-- What every elementary change keeps, every step keeps. -/
theorem step_keeps {P : State → Prop} (hP : ∀ s t, TableChange s t → P s → P t) {s t : State} (hs : P s) (h : step s = .next t) :
    P t := by
  have hc := step_changes h
  clear h
  induction hc with
  | refl => exact hs
  | tail _ h ih => exact hP _ _ h ih

/-! ## Slots and generations -/

/-- The lowest-numbered slot that no window has (R19). -/
theorem State.freeSlot_eq_some_iff (s : State) (k : Nat) :
    s.freeSlot = some k ↔ (1 ≤ k ∧ k ≤ Config.slots ∧ ∀ w ∈ s.windows, w.handle.slot ≠ k)
      ∧ ∀ j, 1 ≤ j → j < k → ∃ w ∈ s.windows, w.handle.slot = j := by
  have hfind : s.freeSlot = ((List.range Config.slots).find? (fun i => s.windows.all (fun w => w.handle.slot != i + 1))).map (· + 1) := by
    unfold State.freeSlot
    rw [List.find?_map]
    rfl
  rw [hfind, Option.map_eq_some_iff]
  constructor
  · rintro ⟨i, hi, rfl⟩
    rw [List.find?_range_eq_some] at hi
    obtain ⟨hfree, hlt, hlow⟩ := hi
    rw [List.mem_range] at hlt
    refine ⟨⟨by omega, by omega, by simpa using hfree⟩, fun j h1 hj => ?_⟩
    have := hlow (j - 1) (by omega)
    simpa [show j - 1 + 1 = j by omega] using this
  · rintro ⟨⟨h1, h24, hfree⟩, hlow⟩
    refine ⟨k - 1, List.find?_range_eq_some.2 ⟨?_, List.mem_range.2 (by omega), fun j hj => ?_⟩, by omega⟩
    · simpa [show k - 1 + 1 = k by omega] using hfree
    · simpa using hlow (j + 1) (by omega) (by omega)

/-- No slot is free exactly while every slot has a window. -/
theorem State.freeSlot_eq_none_iff (s : State) :
    s.freeSlot = none ↔ ¬ ∃ k, 1 ≤ k ∧ k ≤ Config.slots ∧ ∀ w ∈ s.windows, w.handle.slot ≠ k := by
  unfold State.freeSlot
  rw [List.find?_eq_none]
  constructor
  · rintro h ⟨k, h1, h24, hk⟩
    refine h k (List.mem_map.2 ⟨k - 1, List.mem_range.2 (by omega), by omega⟩) ?_
    simpa using hk
  · intro h k hk hfree
    obtain ⟨i, hi, rfl⟩ := List.mem_map.1 hk
    rw [List.mem_range] at hi
    exact h ⟨i + 1, by omega, by omega, by simpa using hfree⟩

/-- A slot's generation rises by one, and every other slot's stays (R19). -/
theorem State.generationOf_bumpGeneration (s : State) {k n : Nat} (h1 : 1 ≤ k) (hk : k ≤ Config.slots) (hn : 1 ≤ n) :
    (s.bumpGeneration k).generationOf n = if n = k then s.generationOf k + 1 else s.generationOf n := by
  have hk : k - 1 < 24 := by simp only [Config.slots] at hk; omega
  unfold State.generationOf
  simp only [State.bumpGeneration, Vector.toList_setIfInBounds, List.getD_eq_getElem?_getD, List.getElem?_set]
  by_cases hnk : n = k
  · subst hnk
    simp [hk, State.generationOf]
  · have hne : k - 1 ≠ n - 1 := by omega
    simp [hnk, hne]

theorem State.generationOf_congr {s t : State} (h : t.generations = s.generations) (n : Nat) : t.generationOf n = s.generationOf n := by
  unfold State.generationOf
  rw [h]

/-! ## The agreement of the table -/

/-- A port's windows and their strips in a list of windows (R13). -/
def windowsOf (ws : List Window) (p : Port) : Nat := (ws.filter (fun w => w.owner == p)).length

def stripsOwned (ws : List Window) (p : Port) : Nat := ((ws.filter (fun w => w.owner == p)).map (fun w => w.stripMap.length)).sum

theorem windowsOf_cons (w : Window) (ws : List Window) (p : Port) :
    windowsOf (w :: ws) p = windowsOf ws p + if p = w.owner then 1 else 0 := by
  unfold windowsOf
  rw [List.filter_cons]
  by_cases h : p = w.owner
  · simp [h]
  · simp [h, Ne.symm h]

theorem stripsOwned_cons (w : Window) (ws : List Window) (p : Port) :
    stripsOwned (w :: ws) p = stripsOwned ws p + if p = w.owner then w.stripMap.length else 0 := by
  unfold stripsOwned
  rw [List.filter_cons]
  by_cases h : p = w.owner
  · simp [h, Nat.add_comm]
  · simp [h, Ne.symm h]

theorem windowsOf_perm {ws xs : List Window} (h : xs.Perm ws) (p : Port) : windowsOf xs p = windowsOf ws p :=
  (h.filter _).length_eq

theorem stripsOwned_perm {ws xs : List Window} (h : xs.Perm ws) (p : Port) : stripsOwned xs p = stripsOwned ws p :=
  ((h.filter _).map _).sum_eq

/-- Kept windows are as many of each port's, with as many strips. -/
theorem KeptAll.owned {prof : Profile} {ws xs : List Window} (h : KeptAll prof ws xs) (p : Port) :
    windowsOf xs p = windowsOf ws p ∧ stripsOwned xs p = stripsOwned ws p := by
  obtain ⟨l, hl, hp⟩ := h
  rw [windowsOf_perm hp, stripsOwned_perm hp]
  clear hp
  induction hl with
  | nil => exact ⟨rfl, rfl⟩
  | cons hk _ ih => simp only [windowsOf_cons, stripsOwned_cons, hk.owner, hk.stripMap, ih, and_self]

theorem State.TableAgrees.of_same {s t : State} (hs : s.TableAgrees) (h : SameTable s t) : t.TableAgrees := by
  have hk := h.windows hs.distinct
  refine ⟨fun x hx => ?_, hk.slotsDistinct hs.distinct, fun x hx => ?_, fun x hx => ?_, ?_, fun p => ?_, fun p => ?_⟩
  · obtain ⟨w, hw, k⟩ := hk.exists_of_mem hx
    rw [k.handle]
    exact hs.slots w hw
  · obtain ⟨w, hw, k⟩ := hk.exists_of_mem hx
    rw [k.handle, State.generationOf_congr h.generations]
    exact hs.current w hw
  · obtain ⟨w, hw, k⟩ := hk.exists_of_mem hx
    rw [k.stripMap, k.sc, k.sr]
    exact hs.mapped w hw
  · exact (h.pool.append (hk.map_perm (fun w => w.stripMap) fun _ _ k => k.stripMap).flatten).trans hs.pool
  · rw [h.windowsHeld, hs.windowsHeld]
    exact (hk.owned p).1.symm
  · rw [h.stripsHeld, hs.stripsHeld]
    exact (hk.owned p).2.symm

theorem State.TableAgrees.created {s : State} {p : Port} {slot : Nat} {o : CreateOperands} (hs : s.TableAgrees)
    (h : CreateAllowed s p slot o) : (s.created p slot o).TableAgrees := by
  obtain ⟨⟨h1, h24, hfree⟩, -⟩ := (s.freeSlot_eq_some_iff slot).1 h.free
  have hperm := insertTop_perm (newWindow ⟨slot, s.generationOf slot⟩ p o (s.available.take (stripsOf o.sc o.sr))) s.windows
  have hlen : (s.available.take (stripsOf o.sc o.sr)).length = stripsOf o.sc o.sr := by simp [h.space]
  have hport (q : Port) : (s.created p slot o).port q = if q = p then { s.port p with
      windowsHeld := (s.port p).windowsHeld + 1, stripsHeld := (s.port p).stripsHeld + stripsOf o.sc o.sr } else s.port q :=
    State.port_setPort _ p q _
  generalize hw : newWindow ⟨slot, s.generationOf slot⟩ p o (s.available.take (stripsOf o.sc o.sr)) = w at hperm
  have hslot : w.handle = ⟨slot, s.generationOf slot⟩ := by rw [← hw]; rfl
  have howner : w.owner = p := by rw [← hw]; rfl
  have hmap : w.stripMap = s.available.take (stripsOf o.sc o.sr) := by rw [← hw]; rfl
  have hwindows : (s.created p slot o).windows = insertTop w s.windows := by rw [← hw]; rfl
  have hmem (x : Window) (hx : x ∈ (s.created p slot o).windows) : x = w ∨ x ∈ s.windows :=
    List.mem_cons.1 (hperm.mem_iff.1 (hwindows ▸ hx))
  refine ⟨fun x hx => ?_, ?_, fun x hx => ?_, fun x hx => ?_, ?_, fun q => ?_, fun q => ?_⟩
  · rcases hmem x hx with rfl | hx
    · rw [hslot]; exact ⟨h1, h24⟩
    · exact hs.slots x hx
  · rw [hwindows]
    refine ((hperm.map _).nodup_iff).2 (List.nodup_cons.2 ⟨fun hin => ?_, hs.distinct⟩)
    obtain ⟨x, hx, hxs⟩ := List.mem_map.1 hin
    exact hfree x hx (hxs.trans (congrArg Handle.slot hslot))
  · rcases hmem x hx with rfl | hx
    · rw [hslot]; rfl
    · exact hs.current x hx
  · rcases hmem x hx with rfl | hx
    · rw [hmap, hlen, ← hw]; rfl
    · exact hs.mapped x hx
  · rw [hwindows]
    have hflat := (hperm.map (fun w => w.stripMap)).flatten
    simp only [List.map_cons, List.flatten_cons, hmap] at hflat
    refine (List.Perm.append_left _ hflat).trans (List.Perm.trans ?_ hs.pool)
    conv_rhs => rw [← List.take_append_drop (stripsOf o.sc o.sr) s.available]
    show (s.available.drop _ ++ s.retiring ++ _).Perm _
    generalize s.available.take _ = a
    generalize s.available.drop _ = b
    grind
  · rw [hport, hwindows]
    show _ = windowsOf _ q
    rw [windowsOf_perm hperm, windowsOf_cons, howner]
    split
    · subst q; simp [hs.windowsHeld, windowsOf]
    · exact hs.windowsHeld q
  · rw [hport, hwindows]
    show _ = stripsOwned _ q
    rw [stripsOwned_perm hperm, stripsOwned_cons, howner, hmap, hlen]
    split
    · subst q; simp [hs.stripsHeld, stripsOwned]
    · exact hs.stripsHeld q

theorem State.TableAgrees.removed {s : State} {w : Window} (hs : s.TableAgrees) (hw : w ∈ s.windows) (f : Option Handle)
    (c : Capture) : (s.removed w f c).TableAgrees := by
  have hperm := State.SlotsDistinct.perm_takeOut hs.distinct hw
  have hport (q : Port) : (s.removed w f c).port q = if q = w.owner then (s.port w.owner).giveUp w.stripMap.length else s.port q :=
    State.port_setPort _ w.owner q _
  have hsub : ∀ x ∈ takeOut w.handle s.windows, x ∈ s.windows := fun x hx => (takeOut_sublist _ _).subset hx
  refine ⟨fun x hx => hs.slots x (hsub x hx), ?_, fun x hx => ?_, fun x hx => hs.mapped x (hsub x hx), ?_, fun q => ?_, fun q => ?_⟩
  · exact ((takeOut_sublist _ _).map _).nodup hs.distinct
  · have hne : x.handle.slot ≠ w.handle.slot := by
      intro he
      have hx' : x.handle ≠ w.handle := by simpa [takeOut] using (List.mem_filter.1 hx).2
      exact hx' (by rw [List.inj_on_of_nodup_map hs.distinct (hsub x hx) hw he])
    have hgen := s.generationOf_bumpGeneration (hs.slots w hw).1 (hs.slots w hw).2 (hs.slots x (hsub x hx)).1
    rw [if_neg hne] at hgen
    exact (hs.current x (hsub x hx)).trans hgen.symm
  · have hflat := (hperm.map (fun w => w.stripMap)).flatten
    simp only [List.map_cons, List.flatten_cons] at hflat
    refine List.Perm.trans ?_ ((List.Perm.append_left _ hflat.symm).trans hs.pool)
    show (s.available ++ (s.retiring ++ w.stripMap) ++ _).Perm _
    simp only [List.append_assoc]
    exact .refl _
  · have hheld := hs.windowsHeld q
    change _ = windowsOf _ q at hheld
    rw [windowsOf_perm hperm, windowsOf_cons] at hheld
    rw [hport]
    show _ = windowsOf (takeOut w.handle s.windows) q
    split at hheld
    · rename_i hq
      rw [if_pos hq, ← hq]
      exact Nat.sub_eq_of_eq_add hheld
    · rename_i hq
      rw [if_neg hq]
      exact hheld
  · have hheld := hs.stripsHeld q
    change _ = stripsOwned _ q at hheld
    rw [stripsOwned_perm hperm, stripsOwned_cons] at hheld
    rw [hport]
    show _ = stripsOwned (takeOut w.handle s.windows) q
    split at hheld
    · rename_i hq
      rw [if_pos hq, ← hq]
      exact Nat.sub_eq_of_eq_add hheld
    · rename_i hq
      rw [if_neg hq]
      exact hheld

theorem State.port_reset (d : DeviceState) (is : List Instr) (p : Port) :
    ({ State.reset with device := d, pending := is } : State).port p = PortRec.reset := by
  simp [State.port, State.reset, Vector.get_eq_getElem]

theorem State.TableAgrees.of_reset (d : DeviceState) (is : List Instr) :
    State.TableAgrees { State.reset with device := d, pending := is } := by
  refine ⟨by simp [State.reset], by simp [State.reset], by simp [State.reset], by simp [State.reset], by simp [State.reset],
    fun p => ?_, fun p => ?_⟩
  · rw [State.port_reset]; rfl
  · rw [State.port_reset]; rfl

theorem State.port_takeProfile (s : State) (e : Profile × Bool) (p : Port) :
    (s.takeProfile e).port p = (s.port p).startState (e.1.ports.get p).enabled := by
  have h : ∀ q : Port, q = 0 ∨ q = 1 ∨ q = 2 ∨ q = 3 := by decide
  unfold State.takeProfile
  simp only [allPorts, List.foldl_cons, List.foldl_nil, State.port_setPort]
  rcases h p with rfl | rfl | rfl | rfl <;> simp

theorem State.TableAgrees.takeProfile {s : State} (hs : s.TableAgrees) (e : Profile × Bool) : (s.takeProfile e).TableAgrees :=
  ⟨hs.slots, hs.distinct, hs.current, hs.mapped, hs.pool,
    fun p => by rw [State.port_takeProfile]; exact hs.windowsHeld p, fun p => by rw [State.port_takeProfile]; exact hs.stripsHeld p⟩

/-- Every elementary change keeps the table in agreement. -/
theorem TableChange.keeps_tableAgrees (s t : State) (h : TableChange s t) (hs : s.TableAgrees) : t.TableAgrees := by
  cases h with
  | same h => exact hs.of_same h
  | create h _ => exact hs.created h
  | remove hw f c => exact hs.removed hw f c
  | reset d _ is => exact .of_reset d is
  | load e _ => exact hs.takeProfile e

/-- Settles O53: every step is a sequence of elementary changes, and each keeps the table in agreement. -/
theorem stepKeepsTheTableAgreeing : Obligations.StepKeepsTheTableAgreeing :=
  fun _ _ hs h => step_keeps TableChange.keeps_tableAgrees hs h

/-! ## The geometry rules and the quotas -/

/-- The device is READY while the engine has a slice (R47, R103). -/
theorem State.Quiet.ready_of_slice {s : State} (h : s.Quiet) {p : Port} (hs : s.slice = some p) : s.device = .ready := by
  by_contra hd
  have hdet := h.1 hd p
  have heng := h.2 p hs
  rw [hdet] at heng
  simp [PortState.engaged] at heng

theorem State.portProf_congr {s t : State} (h : t.profile = s.profile) (p : Port) : t.portProf p = s.portProf p := by
  unfold State.portProf
  rw [State.prof_congr h]

theorem State.GeometryAgrees.of_same {s t : State} (hs : s.GeometryAgrees) (h : SameTable s t) : t.GeometryAgrees := by
  have hk := h.windows hs.distinct
  obtain ⟨hq, he⟩ := h.quiet ⟨hs.quietStart, hs.sliceEngaged⟩
  refine ⟨hq, he, fun hd => ?_, hk.slotsDistinct hs.distinct, fun x hx => ?_, fun x hx => ?_, fun p => ?_⟩
  · obtain ⟨hw, hh⟩ := hs.emptyStart (h.device ▸ hd)
    refine ⟨List.eq_nil_iff_forall_not_mem.2 fun x hx => ?_, fun p => ?_⟩
    · obtain ⟨w, hw', -⟩ := hk.exists_of_mem hx
      rw [hw] at hw'
      cases hw'
    · rw [h.windowsHeld, h.stripsHeld]
      exact hh p
  · obtain ⟨w, hw, k⟩ := hk.exists_of_mem hx
    rw [State.prof_congr h.profile]
    exact k.geometry (hs.geometry w hw)
  · obtain ⟨w, hw, k⟩ := hk.exists_of_mem hx
    exact k.cursor (hs.cursor w hw)
  · rw [h.windowsHeld, h.stripsHeld, State.portProf_congr h.profile]
    exact hs.quotas p

/-- A surface within the geometry rules has a cell at its top left (R18). -/
theorem surface_pos_of_geometryOk {prof : Profile} {sc sr : Nat} {v : Rect} {c r : Nat} (h : geometryOk prof sc sr v c r = true) :
    0 < sc ∧ 0 < sr := by
  simp only [geometryOk, inRange, Bool.and_eq_true, decide_eq_true_eq] at h
  omega

theorem State.GeometryAgrees.created {s : State} {p : Port} {slot : Nat} {o : CreateOperands} (hs : s.GeometryAgrees)
    (h : CreateAllowed s p slot o) (hp : s.slice = some p) : (s.created p slot o).GeometryAgrees := by
  have hquiet : s.Quiet := ⟨hs.quietStart, hs.sliceEngaged⟩
  have hready := hquiet.ready_of_slice hp
  obtain ⟨⟨-, -, hfree⟩, -⟩ := (s.freeSlot_eq_some_iff slot).1 h.free
  have hperm := insertTop_perm (newWindow ⟨slot, s.generationOf slot⟩ p o (s.available.take (stripsOf o.sc o.sr))) s.windows
  have hport (q : Port) : (s.created p slot o).port q = if q = p then { s.port p with
      windowsHeld := (s.port p).windowsHeld + 1, stripsHeld := (s.port p).stripsHeld + stripsOf o.sc o.sr } else s.port q :=
    State.port_setPort _ p q _
  have hmem (x : Window) (hx : x ∈ (s.created p slot o).windows) := List.mem_cons.1 (hperm.mem_iff.1 hx)
  refine ⟨fun hd => absurd hready hd, fun q hq => ?_, fun hd => absurd hready hd, ?_, fun x hx => ?_, fun x hx => ?_, fun q => ?_⟩
  · have hq : s.slice = some q := hq
    rw [hport]
    split
    · exact hs.sliceEngaged p hp
    · exact hs.sliceEngaged q hq
  · refine ((hperm.map _).nodup_iff).2 (List.nodup_cons.2 ⟨fun hin => ?_, hs.distinct⟩)
    obtain ⟨x, hx, hxs⟩ := List.mem_map.1 hin
    exact hfree x hx hxs
  · rcases hmem x hx with rfl | hx
    · exact h.geometry
    · exact hs.geometry x hx
  · rcases hmem x hx with rfl | hx
    · exact surface_pos_of_geometryOk h.geometry
    · exact hs.cursor x hx
  · rw [hport]
    split
    · subst q
      exact ⟨h.windowQuota, h.stripQuota⟩
    · exact hs.quotas q

theorem State.GeometryAgrees.removed {s : State} {w : Window} (hs : s.GeometryAgrees) (hw : w ∈ s.windows) (f : Option Handle)
    (c : Capture) : (s.removed w f c).GeometryAgrees := by
  have hport (q : Port) : (s.removed w f c).port q = if q = w.owner then (s.port w.owner).giveUp w.stripMap.length else s.port q :=
    State.port_setPort _ w.owner q _
  have hstate (q : Port) : ((s.removed w f c).port q).state = (s.port q).state := by
    rw [hport]
    split
    · subst q; rfl
    · rfl
  have hquiet : (s.removed w f c).Quiet := State.Quiet.congr ⟨hs.quietStart, hs.sliceEngaged⟩ rfl hstate rfl
  have hsub : ∀ x ∈ takeOut w.handle s.windows, x ∈ s.windows := fun x hx => (takeOut_sublist _ _).subset hx
  refine ⟨hquiet.1, hquiet.2, fun hd => ?_, ((takeOut_sublist _ _).map _).nodup hs.distinct, fun x hx => hs.geometry x (hsub x hx),
    fun x hx => hs.cursor x (hsub x hx), fun q => ?_⟩
  · rw [(hs.emptyStart hd).1] at hw
    cases hw
  · have hq := hs.quotas q
    rw [hport]
    split
    · subst q
      exact ⟨(Nat.sub_le _ _).trans hq.1, (Nat.sub_le _ _).trans hq.2⟩
    · exact hq

theorem State.GeometryAgrees.of_reset (d : DeviceState) (is : List Instr) :
    State.GeometryAgrees { State.reset with device := d, pending := is } := by
  refine ⟨fun _ p => ?_, fun p hp => (nomatch hp), fun _ => ⟨rfl, fun p => ?_⟩, by simp [State.reset], by simp [State.reset],
    by simp [State.reset], fun p => ?_⟩
  · rw [State.port_reset]; rfl
  · rw [State.port_reset]; exact ⟨rfl, rfl⟩
  · rw [State.port_reset]; exact ⟨Nat.zero_le _, Nat.zero_le _⟩

/-- While the device is STARTING no port holds a window, so any profile's rules and quotas are met (R103). -/
theorem State.GeometryAgrees.takeProfile {s : State} (hs : s.GeometryAgrees) (hd : s.device = .starting) (e : Profile × Bool) :
    (s.takeProfile e).GeometryAgrees := by
  have hne : s.device ≠ .ready := by rw [hd]; decide
  obtain ⟨hw, hh⟩ := hs.emptyStart hne
  have hwindows : (s.takeProfile e).windows = [] := hw
  refine ⟨fun h => absurd rfl h, fun p hp => ?_, fun h => absurd rfl h, by simp [hwindows], by simp [hwindows], by simp [hwindows],
    fun p => ?_⟩
  · exact absurd (State.Quiet.ready_of_slice ⟨hs.quietStart, hs.sliceEngaged⟩ hp) hne
  · rw [State.port_takeProfile]
    simp [hh p]

/-- Every elementary change keeps the geometry rules and the quotas. -/
theorem TableChange.keeps_geometryAgrees (s t : State) (h : TableChange s t) (hs : s.GeometryAgrees) : t.GeometryAgrees := by
  cases h with
  | same h => exact hs.of_same h
  | create h hp => exact hs.created h hp
  | remove hw f c => exact hs.removed hw f c
  | reset d _ is => exact .of_reset d is
  | load e hd => exact hs.takeProfile hd e

/-- Settles O59: every step is a sequence of elementary changes, and each keeps the geometry rules and the quotas. -/
theorem stepKeepsTheGeometryAgreeing : Obligations.StepKeepsTheGeometryAgreeing :=
  fun _ _ hs h => step_keeps TableChange.keeps_geometryAgrees hs h

/-! ## CREATE_WINDOW: operands and checks -/

theorem bandOf_eq_some_iff (n : Nat) (b : Band) : bandOf n = some b ↔ n = b.rank := by
  unfold bandOf
  split <;> cases b <;> simp [Band.rank] <;> omega

theorem createOperands_eq_some_iff (pl : List Byte) (o : CreateOperands) :
    createOperands pl = some o ↔ pl.length = 12 ∧ byteAt pl 0 = o.band.rank ∧ o.sc = byteAt pl 1 ∧ o.sr = byteAt pl 2
      ∧ o.view = ⟨byteAt pl 3, byteAt pl 4, byteAt pl 5, byteAt pl 6⟩ ∧ o.offCol = byteAt pl 7 ∧ o.offRow = byteAt pl 8
      ∧ o.clear = cellAt pl 9 ∧ o.clear.glyph ≤ 319 := by
  obtain ⟨band, sc, sr, view, offCol, offRow, clear⟩ := o
  simp only [← bandOf_eq_some_iff, createOperands]
  cases bandOf (byteAt pl 0) with
  | none => simp
  | some b =>
    simp only [Option.ite_none_right_eq_some, Option.some.injEq, CreateOperands.mk.injEq, rectAt, glyphOk, decide_eq_true_eq]
    constructor
    · rintro ⟨⟨hl, hg⟩, rfl, rfl, rfl, rfl, rfl, rfl, rfl⟩
      exact ⟨hl, rfl, rfl, rfl, rfl, rfl, rfl, rfl, hg⟩
    · rintro ⟨hl, rfl, rfl, rfl, rfl, rfl, rfl, rfl, hg⟩
      exact ⟨⟨hl, hg⟩, rfl, rfl, rfl, rfl, rfl, rfl, rfl⟩

/-- The rules of R18, one by one. -/
theorem geometryOk_iff (prof : Profile) (sc sr : Nat) (v : Rect) (offCol offRow : Nat) :
    geometryOk prof sc sr v offCol offRow = true ↔ 1 ≤ sc ∧ sc ≤ 128 ∧ 1 ≤ sr ∧ sr ≤ 64 ∧ 1 ≤ v.w ∧ v.w ≤ 100 ∧ 1 ≤ v.h ∧ v.h ≤ 40
      ∧ v.col + v.w ≤ prof.gridCols ∧ v.row + v.h ≤ prof.gridRows ∧ offCol + v.w ≤ sc ∧ offRow + v.h ≤ sr := by
  simp only [geometryOk, inRange, onScreen, inSurface, Bool.and_eq_true, decide_eq_true_eq, and_assoc]

/-- A slice that a check ends, or that has no effect but a result part. -/
theorem exec_ended {s : State} {p : Port} {i : Instr} {k : CommandKind} {c : QCmd} {work : QCmd → State → SliceEnd} {st : Status}
    {res : ResultPart} {cells : Nat} (hi : exec i s = .next (s.runSlice p k work)) (h : Serves s p k c)
    (he : work c s = .ended st res cells s) : exec i s = .next (s.concludes p c st res cells) :=
  hi.trans (congrArg Host.Outcome.next (State.runSlice_ended h he))

/-- A slice of CREATE_WINDOW that a check ends changes nothing else (R12, R27). -/
theorem createWindow_ends {s : State} {p : Port} {c : QCmd} {st : Status} (h : Serves s p .createWindow c)
    (he : s.createWindow p c = .error st) : exec (.createWindow p) s = .next (s.concludes p c st .none 0) :=
  exec_ended rfl h (by rw [he]; rfl)

/-- The checks of CREATE_WINDOW on operands that have a meaning, in order (R12, R27). -/
theorem State.createWindow_eq {s : State} {p : Port} {c : QCmd} {o : CreateOperands} (ho : createOperands c.payload = some o) :
    s.createWindow p c =
      if o.band.rank > (s.portProf p).maxBand.rank then .error .notPermitted
      else if !geometryOk s.prof o.sc o.sr o.view o.offCol o.offRow then .error .badGeometry
      else if (s.port p).windowsHeld + 1 > (s.portProf p).windowQuota then .error .quota
      else s.freeSlot.elim (.error .noSlot) fun slot =>
        if (s.port p).stripsHeld + stripsOf o.sc o.sr > (s.portProf p).stripQuota then .error .quota
        else if stripsOf o.sc o.sr > s.available.length then .error .noSpace
        else .ok (s.createAt p slot o) := by
  unfold State.createWindow
  rw [ho]
  cases s.freeSlot <;> rfl

/-- Settles O25: each check is reached by passing those before it, and its failure ends the command. -/
theorem createWindowChecksInOrder : Obligations.CreateWindowChecksInOrder := by
  refine ⟨fun sc sr => ⟨stripsPerRow sc, ?_, ?_, rfl⟩, createOperands_eq_some_iff, ?_⟩
  · unfold stripsPerRow; omega
  · unfold stripsPerRow; omega
  · intro s p c hserves ends
    refine ⟨fun ho => createWindow_ends hserves (by rw [State.createWindow, ho]), fun o ho => ?_⟩
    intro prof n shape free fits
    have hshape : geometryOk s.prof o.sc o.sr o.view o.offCol o.offRow = true ↔ shape := geometryOk_iff _ _ _ _ _ _
    have hfree : s.freeSlot = none ↔ ¬ free := s.freeSlot_eq_none_iff
    have heq := State.createWindow_eq (s := s) (p := p) ho
    simp only [Bool.not_eq_eq_eq_not, Bool.not_true, ← Bool.not_eq_true, hshape] at heq
    refine ⟨fun hb => createWindow_ends hserves ?_, fun hb hs => createWindow_ends hserves ?_,
      fun hb hs hf => createWindow_ends hserves ?_, fun hb hs hf hn => createWindow_ends hserves ?_,
      fun hb hs hf hn hq => createWindow_ends hserves ?_, fun hb hs hf hn hq ha => createWindow_ends hserves ?_⟩
    · rw [heq, if_pos hb]
    · rw [heq, if_neg (Nat.not_lt.2 hb), if_pos hs]
    · rw [heq, if_neg (Nat.not_lt.2 hb), if_neg (not_not.2 hs), if_pos (Nat.not_le.1 hf)]
    all_goals rw [heq, if_neg (Nat.not_lt.2 hb), if_neg (not_not.2 hs), if_neg (Nat.not_lt.2 hf)]
    · rw [hfree.2 hn]; rfl
    all_goals
      obtain ⟨slot, hslot⟩ := Option.ne_none_iff_exists'.1 (fun e => hfree.1 e hn)
      rw [hslot]
    · exact if_pos hq
    · exact (if_neg (Nat.not_lt.2 hq)).trans (if_pos ha)

/-! ## CREATE_WINDOW: its effect -/

/-- In a stack in band order the top of a band lies below every window of a higher band and above all others (R21). -/
theorem insertTop_eq (w : Window) (ws : List Window) (h : ws.Pairwise (fun a b => b.band.rank ≤ a.band.rank)) :
    insertTop w ws = ws.filter (fun x => w.band.rank < x.band.rank) ++ [w]
      ++ ws.filter (fun x => !decide (w.band.rank < x.band.rank)) := by
  induction ws with
  | nil => rfl
  | cons x xs ih =>
    obtain ⟨hx, hxs⟩ := List.pairwise_cons.1 h
    unfold insertTop
    split
    · rename_i hlt
      have hlt : w.band.rank < x.band.rank := hlt
      simp [ih hxs, hlt]
    · rename_i hge
      have hall : ∀ y ∈ x :: xs, ¬ w.band.rank < y.band.rank := by
        intro y hy
        rcases List.mem_cons.1 hy with rfl | hy
        · exact hge
        · have := hx y hy; omega
      rw [List.filter_eq_nil_iff.2 (by simpa using hall), List.filter_eq_self.2 (by simpa using hall)]
      rfl

/-- Every surface cell lies in a strip of the map (R7). -/
theorem stripAt_mem {map : List Nat} {sc sr c r : Nat} (hm : map.length = stripsOf sc sr) (hc : c < sc) (hr : r < sr) :
    r * stripsPerRow sc + c / 16 < map.length ∧ stripAt map sc c r ∈ map := by
  have hlt : r * stripsPerRow sc + c / 16 < map.length := by
    have hrow : r * stripsPerRow sc + stripsPerRow sc ≤ sr * stripsPerRow sc := by
      rw [← Nat.succ_mul]
      exact Nat.mul_le_mul_right _ hr
    have hcol : c / 16 < stripsPerRow sc := by unfold stripsPerRow; omega
    rw [hm, stripsOf]
    omega
  refine ⟨hlt, ?_⟩
  rw [stripAt, List.getD_eq_getElem _ _ hlt]
  exact List.getElem_mem hlt

/-- Posted records change neither a port's state, nor its stop mark, nor the waiting removal. -/
theorem State.RecordsOnly.keeps {s t : State} (h : s.RecordsOnly t) (p : Port) :
    (t.port p).state = (s.port p).state ∧ (t.port p).stopMark = (s.port p).stopMark ∧ t.waitingRemoval = s.waitingRemoval := by
  refine ⟨?_, ?_, by rw [h.1]⟩ <;> rw [h.2 p]

theorem State.recomputeExposure_keeps (s : State) (p : Port) :
    (s.recomputeExposure.port p).state = (s.port p).state ∧ (s.recomputeExposure.port p).stopMark = (s.port p).stopMark
      ∧ s.recomputeExposure.waitingRemoval = s.waitingRemoval :=
  s.recomputeExposure_records.keeps p

/-- Settles O26: the work leaves the state `created` with exposure recomputed, and the slice ends in the ordinary way. -/
theorem createWindowMakesTheWindow : Obligations.CreateWindowMakesTheWindow := by
  intro s p c o slot hserves ho hband hgeometry hwindows hslot hstrips hspace hcanonical horder n w
  obtain ⟨h1, h24, hfree, hlow⟩ := hslot
  have hallowed : CreateAllowed s p slot o :=
    ⟨hband, hgeometry, hwindows, (s.freeSlot_eq_some_iff slot).2 ⟨⟨h1, h24, hfree⟩, hlow⟩, hstrips, hspace⟩
  have hwork : s.createWindow p c = .ok ((s.created p slot o).recomputeExposure, .handle w.handle) := by
    rw [State.createWindow_eq ho, if_neg (Nat.not_lt.2 hband), if_neg (by simp [hgeometry]), if_neg (Nat.not_lt.2 hwindows),
      hallowed.free]
    exact (if_neg (Nat.not_lt.2 hstrips)).trans (if_neg (Nat.not_lt.2 hspace))
  obtain ⟨hstate, hstop, hwaiting⟩ := (s.created p slot o).recomputeExposure_keeps p
  have hport : ((s.created p slot o).port p).state = (s.port p).state ∧ ((s.created p slot o).port p).stopMark = (s.port p).stopMark := by
    rw [State.created, State.port_setPort_self]
    exact ⟨rfl, rfl⟩
  have hlen : (s.available.take n).length = n := by simp [n, hspace]
  refine ⟨Memory.fill s.memory (s.available.take n) o.clear, ?_, fun col row hc hr => ?_, fun k hk => Memory.read_fill_not_mem _ _ _ k hk⟩
  · rw [← insertTop_eq w s.windows horder]
    refine congrArg Host.Outcome.next (State.runSlice_plain (e := .ended .ok (.handle w.handle) 0 (s.created p slot o).recomputeExposure)
      hserves ?_ ?_ ?_ ?_)
    · rw [hwork]; rfl
    · exact hstate.trans hport.1
    · exact hstop.trans hport.2
    · exact hwaiting
  · rw [Memory.cell, Memory.read_fill_mem _ _ _ _ hcanonical (stripAt_mem hlen hc hr).2]
    simp [Vector.get_eq_getElem]

/-! ## The strips of windows are apart (R7, R9) -/

theorem State.TableAgrees.strips_nodup {s : State} (h : s.TableAgrees) :
    (s.windows.map (fun w => w.stripMap)).flatten.Nodup :=
  (List.nodup_append.1 (h.pool.nodup_iff.2 List.nodup_range)).2.1

theorem State.TableAgrees.stripMap_nodup {s : State} (h : s.TableAgrees) {w : Window} (hw : w ∈ s.windows) : w.stripMap.Nodup :=
  (List.nodup_flatten.1 h.strips_nodup).1 _ (List.mem_map_of_mem hw)

theorem State.TableAgrees.stripMap_disjoint {s : State} (h : s.TableAgrees) {w x : Window} (hw : w ∈ s.windows) (hx : x ∈ s.windows)
    (hne : x.handle ≠ w.handle) : x.stripMap.Disjoint w.stripMap := by
  have hsymm : Std.Symm (fun a b : Window => a.stripMap.Disjoint b.stripMap) := ⟨fun _ _ hd => hd.symm⟩
  exact (List.pairwise_map.1 (List.nodup_flatten.1 h.strips_nodup).2).forall hx hw (fun e => hne (by rw [e]))

/-- Two cells of a surface that share a strip and a position in it are one cell (R7). -/
theorem stripAt_injective {map : List Nat} {sc sr c r c' r' : Nat} (hm : map.length = stripsOf sc sr) (hd : map.Nodup)
    (hc : c < sc) (hr : r < sr) (hc' : c' < sc) (hr' : r' < sr) (hs : stripAt map sc c r = stripAt map sc c' r')
    (hp : stripPos c = stripPos c') : c = c' ∧ r = r' := by
  have hlt := (stripAt_mem hm hc hr).1
  have hlt' := (stripAt_mem hm hc' hr').1
  rw [stripAt, stripAt, List.getD_eq_getElem _ _ hlt, List.getD_eq_getElem _ _ hlt', hd.getElem_inj_iff] at hs
  have hpos : c % 16 = c' % 16 := congrArg Fin.val hp
  have hcol : c / 16 < stripsPerRow sc := by unfold stripsPerRow; omega
  have hcol' : c' / 16 < stripsPerRow sc := by unfold stripsPerRow; omega
  have hrow (c r : Nat) (hc : c / 16 < stripsPerRow sc) : (r * stripsPerRow sc + c / 16) / stripsPerRow sc = r := by
    rw [Nat.mul_comm, Nat.mul_add_div (by omega), Nat.div_eq_of_lt hc, Nat.add_zero]
  have hr : r = r' := by rw [← hrow c r hcol, hs, hrow c' r' hcol']
  subst hr
  omega

/-! ## Cells written one after another -/

/-- The memory after the cells at the places of `units` have been written in order, each with its value. -/
def Memory.writeUnits (m : Memory) (map : List Nat) (sc : Nat) (col row : Nat → Nat) (value : Nat → Cell) (units : List Nat) : Memory :=
  units.foldl (fun m n => Memory.setCell m map sc (col n) (row n) (value n)) m

/-- A strip outside the map is left alone. -/
theorem Memory.read_writeUnits_not_mem {m : Memory} {map : List Nat} {sc sr : Nat} {col row : Nat → Nat} {value : Nat → Cell}
    {units : List Nat} (hm : map.length = stripsOf sc sr) (hin : ∀ n ∈ units, col n < sc ∧ row n < sr) {k : Nat} (hk : k ∉ map) :
    Memory.read (m.writeUnits map sc col row value units) k = Memory.read m k := by
  unfold Memory.writeUnits
  induction units generalizing m with
  | nil => rfl
  | cons n ns ih =>
    obtain ⟨hc, hr⟩ := hin n List.mem_cons_self
    have hne : k ≠ stripAt map sc (col n) (row n) := fun e => hk (e ▸ (stripAt_mem hm hc hr).2)
    exact (ih fun i hi => hin i (List.mem_cons_of_mem n hi)).trans (Memory.read_write_ne _ _ _ _ hne)

/-- A cell takes the value of the unit `j` that writes it, where `j` is the one unit that can, and is else left alone. -/
theorem Memory.cell_writeUnits {m : Memory} {map : List Nat} {sc sr : Nat} {col row : Nat → Nat} {value : Nat → Cell}
    {units : List Nat} (hwf : Memory.wf m = true) (hm : map.length = stripsOf sc sr) (hd : map.Nodup)
    (hin : ∀ n ∈ units, col n < sc ∧ row n < sr) {c r j : Nat} (hc : c < sc) (hr : r < sr)
    (hj : ∀ n ∈ units, col n = c ∧ row n = r ↔ n = j) :
    Memory.cell (m.writeUnits map sc col row value units) map sc c r = if j ∈ units then value j else Memory.cell m map sc c r := by
  unfold Memory.writeUnits
  induction units generalizing m with
  | nil => rfl
  | cons n ns ih =>
    have hrest := ih (m := Memory.setCell m map sc (col n) (row n) (value n)) (Memory.wf_setCell _ _ _ _ _ _ hwf)
      (fun i hi => hin i (List.mem_cons_of_mem n hi)) (fun i hi => hj i (List.mem_cons_of_mem n hi))
    rw [List.foldl_cons, hrest]
    by_cases hns : j ∈ ns
    · rw [if_pos hns, if_pos (List.mem_cons_of_mem n hns)]
    · rw [if_neg hns]
      by_cases hnj : n = j
      · subst hnj
        obtain ⟨rfl, rfl⟩ := (hj n List.mem_cons_self).2 rfl
        rw [if_pos List.mem_cons_self]
        exact Memory.cell_setCell_self _ _ _ _ _ _ hwf
      · rw [if_neg (by simp [hns, Ne.symm hnj])]
        obtain ⟨hc', hr'⟩ := hin n List.mem_cons_self
        refine Memory.cell_setCell_ne _ _ _ _ _ _ _ _ _ _ hwf (Classical.or_iff_not_imp_left.2 fun hs hp => hnj ?_)
        obtain ⟨hcc, hrr⟩ := stripAt_injective hm hd hc hr hc' hr' (not_not.1 hs) hp
        exact (hj n List.mem_cons_self).1 ⟨hcc.symm, hrr.symm⟩

/-! ## Rectangles (R67) -/

theorem rectOk_iff (sc sr : Nat) (r : Rect) :
    rectOk sc sr r = true ↔ 1 ≤ r.w ∧ r.w ≤ 128 ∧ 1 ≤ r.h ∧ r.h ≤ 64 ∧ r.col + r.w ≤ sc ∧ r.row + r.h ≤ sr := by
  simp only [rectOk, inRange, Bool.and_eq_true, decide_eq_true_eq, and_assoc]

theorem contains_iff (r : Rect) (c row : Nat) :
    contains r c row = true ↔ r.col ≤ c ∧ c < r.col + r.w ∧ r.row ≤ row ∧ row < r.row + r.h := by
  simp only [contains, Bool.and_eq_true, decide_eq_true_eq, and_assoc]

/-- A cell number below the area lies inside the rectangle. -/
theorem colOf_rowOf_inside {r : Rect} {n : Nat} (hw : 1 ≤ r.w) (hn : n < r.w * r.h) :
    colOf r n < r.col + r.w ∧ rowOf r n < r.row + r.h :=
  ⟨Nat.add_lt_add_left (Nat.mod_lt _ hw) _, Nat.add_lt_add_left (Nat.div_lt_of_lt_mul hn) _⟩

/-- Cell `n` in forward order is at (c, row) exactly when the cell lies inside and `n` is its place, counted row by row (R67). -/
theorem colOf_rowOf_eq_iff {r : Rect} {n c row : Nat} (hw : 1 ≤ r.w) (hn : n < r.w * r.h) :
    colOf r n = c ∧ rowOf r n = row ↔ contains r c row = true ∧ n = (row - r.row) * r.w + (c - r.col) := by
  obtain ⟨hc, hr⟩ := colOf_rowOf_inside hw hn
  rw [contains_iff]
  constructor
  · rintro ⟨rfl, rfl⟩
    refine ⟨⟨Nat.le_add_right _ _, hc, Nat.le_add_right _ _, hr⟩, ?_⟩
    simp only [colOf, rowOf, Nat.add_sub_cancel_left]
    exact (Nat.div_add_mod' n r.w).symm
  · rintro ⟨⟨h1, h2, h3, h4⟩, rfl⟩
    have hlt : c - r.col < r.w := by omega
    simp only [colOf, rowOf]
    rw [Nat.mul_comm, Nat.mul_add_mod, Nat.mod_eq_of_lt hlt, Nat.mul_add_div hw, Nat.div_eq_of_lt hlt]
    omega

/-- The place of a cell inside a rectangle is below its area. -/
theorem place_lt_area {r : Rect} {c row : Nat} (h : contains r c row = true) : (row - r.row) * r.w + (c - r.col) < r.w * r.h := by
  obtain ⟨h1, h2, h3, h4⟩ := (contains_iff r c row).1 h
  calc (row - r.row) * r.w + (c - r.col) < (row - r.row) * r.w + r.w := by omega
    _ = (row - r.row + 1) * r.w := (Nat.succ_mul _ _).symm
    _ ≤ r.h * r.w := Nat.mul_le_mul_right _ (by omega)
    _ = r.w * r.h := Nat.mul_comm _ _

theorem mem_sliceUnits (area next n : Nat) : n ∈ sliceUnits area next ↔ next ≤ n ∧ n < area ∧ n < next + 64 := by
  simp only [sliceUnits, Config.sliceCells, List.mem_range'_1]
  omega

/-- What a slice of a fill or a put leaves in a window: its next 64 cells have their values, and every other cell and strip is as
it was (R52, R67). -/
theorem State.writeUnits_rect {s : State} {w : Window} {r : Rect} (value : Nat → Cell) (next : Nat) (hw : w ∈ s.windows)
    (hcanonical : s.StripsCanonical) (htable : s.TableAgrees) (hfits : rectOk w.sc w.sr r = true) (u : State)
    (hu : u = { s with memory := s.memory.writeUnits w.stripMap w.sc (colOf r) (rowOf r) value (sliceUnits (r.w * r.h) next) }) :
    (∀ col row, col < w.sc → row < w.sr → u.cellOf w col row =
        if contains r col row = true ∧ next ≤ (row - r.row) * r.w + (col - r.col) ∧ (row - r.row) * r.w + (col - r.col) < next + 64
        then value ((row - r.row) * r.w + (col - r.col)) else s.cellOf w col row)
      ∧ (∀ x ∈ s.windows, x.handle ≠ w.handle → ∀ col row, col < x.sc → row < x.sr → u.cellOf x col row = s.cellOf x col row)
      ∧ (∀ k, k ∉ w.stripMap → Memory.read u.memory k = Memory.read s.memory k) := by
  subst hu
  obtain ⟨hw1, -, -, -, hcols, hrows⟩ := (rectOk_iff _ _ _).1 hfits
  have hmapped := htable.mapped w hw
  have hin : ∀ n ∈ sliceUnits (r.w * r.h) next, colOf r n < w.sc ∧ rowOf r n < w.sr := by
    intro n hn
    obtain ⟨hc, hr⟩ := colOf_rowOf_inside (r := r) hw1 ((mem_sliceUnits _ _ _).1 hn).2.1
    omega
  have hread : ∀ k, k ∉ w.stripMap → Memory.read
      (s.memory.writeUnits w.stripMap w.sc (colOf r) (rowOf r) value (sliceUnits (r.w * r.h) next)) k = Memory.read s.memory k :=
    fun k hk => Memory.read_writeUnits_not_mem hmapped hin hk
  refine ⟨fun col row hc hr => ?_, fun x hx hne col row hc hr => ?_, hread⟩
  · by_cases hcon : contains r col row = true
    · refine (Memory.cell_writeUnits (j := (row - r.row) * r.w + (col - r.col)) hcanonical hmapped (htable.stripMap_nodup hw) hin hc hr
        fun n hn => ?_).trans (if_congr ?_ rfl rfl)
      · rw [colOf_rowOf_eq_iff hw1 ((mem_sliceUnits _ _ _).1 hn).2.1]
        exact and_iff_right hcon
      · rw [mem_sliceUnits]
        have := place_lt_area hcon
        tauto
    · rw [if_neg fun h => hcon h.1]
      refine (Memory.cell_writeUnits (j := r.w * r.h) hcanonical hmapped (htable.stripMap_nodup hw) hin hc hr fun n hn => ?_).trans
        (if_neg fun hj => absurd ((mem_sliceUnits _ _ _).1 hj).2.1 (Nat.lt_irrefl _))
      have hlt := ((mem_sliceUnits _ _ _).1 hn).2.1
      rw [colOf_rowOf_eq_iff hw1 hlt]
      exact ⟨fun h => absurd h.1 hcon, fun h => absurd h (Nat.ne_of_lt hlt)⟩
  · have hmem := (stripAt_mem (htable.mapped x hx) hc hr).2
    exact congrArg (fun t : Strip => t.get (stripPos col)) (hread _ fun h => htable.stripMap_disjoint hw hx hne hmem h)

/-- A slice over a rectangle ends its command when its units are the last, and goes on after 64 otherwise (R52). -/
theorem State.rectSlice_cases (s : State) (pr : Progress) (backward : Bool) (area : Nat) (write : Memory → Nat → Memory)
    (hn : pr.next ≤ area) :
    (area ≤ pr.next + 64 → s.rectSlice pr backward area write = .ended .ok .none area
        { s with memory := (sliceUnits area pr.next).foldl (fun m n => write m (unitIndex backward area n)) s.memory })
      ∧ (pr.next + 64 < area → s.rectSlice pr backward area write = .more
          { pr with started := true, next := pr.next + 64, cellsDone := pr.next + 64, backward := backward }
          { s with memory := (sliceUnits area pr.next).foldl (fun m n => write m (unitIndex backward area n)) s.memory }) := by
  have hlen : (sliceUnits area pr.next).length = min 64 (area - pr.next) := List.length_range'
  unfold State.rectSlice
  simp only [hlen]
  refine ⟨fun h => ?_, fun h => ?_⟩
  · rw [show pr.next + min 64 (area - pr.next) = area by omega, if_pos (Nat.le_refl _)]
  · rw [show pr.next + min 64 (area - pr.next) = pr.next + 64 by omega, if_neg (by omega)]

/-! ## FILL_RECT and PUT_CELLS -/

theorem fillOperands_eq_some_iff (pl : List Byte) (r : Rect) (v : Cell) : fillOperands pl = some (r, v) ↔
    pl.length = 9 ∧ r = ⟨byteAt pl 2, byteAt pl 3, byteAt pl 4, byteAt pl 5⟩ ∧ v = cellAt pl 6 ∧ v.glyph ≤ 319 := by
  simp only [fillOperands, Option.ite_none_right_eq_some, Option.some.injEq, Prod.mk.injEq, rectAt, glyphOk, decide_eq_true_eq]
  constructor
  · rintro ⟨⟨hl, hg⟩, rfl, rfl⟩
    exact ⟨hl, rfl, rfl, hg⟩
  · rintro ⟨hl, rfl, rfl, hg⟩
    exact ⟨⟨hl, hg⟩, rfl, rfl⟩

/-- A list is the list of `n` cells from a position on exactly when it has them in its places. -/
theorem eq_cellsFrom_iff (pl : List Byte) (i n : Nat) (cs : List Cell) :
    cs = cellsFrom pl i n ↔ cs.length = n ∧ ∀ k, k < n → cs[k]? = some (cellAt pl (i + 3 * k)) := by
  constructor
  · rintro rfl
    simp +contextual [cellsFrom]
  · rintro ⟨hl, hk⟩
    refine List.ext_getElem? fun k => ?_
    by_cases h : k < n
    · rw [hk k h]
      simp [cellsFrom, h]
    · rw [List.getElem?_eq_none (by omega), List.getElem?_eq_none (by simp [cellsFrom]; omega)]

theorem putOperands_eq_some_iff (pl : List Byte) (r : Rect) (cs : List Cell) : putOperands pl = some (r, cs) ↔
    r = ⟨byteAt pl 2, byteAt pl 3, byteAt pl 4, byteAt pl 5⟩ ∧ byteAt pl 6 = r.w * r.h ∧ pl.length = 7 + 3 * byteAt pl 6
      ∧ cs.length = byteAt pl 6
      ∧ ∀ k, k < byteAt pl 6 → cs[k]? = some (cellAt pl (7 + 3 * k)) ∧ (cellAt pl (7 + 3 * k)).glyph ≤ 319 := by
  have hall : (cellsFrom pl 7 (byteAt pl 6)).all glyphOk = true ↔ ∀ k, k < byteAt pl 6 → (cellAt pl (7 + 3 * k)).glyph ≤ 319 := by
    simp [cellsFrom, glyphOk]
  simp only [putOperands, Option.ite_none_right_eq_some, Option.some.injEq, Prod.mk.injEq, hall]
  constructor
  · rintro ⟨⟨hn, hl, hg⟩, rfl, hcs⟩
    obtain ⟨hlen, hk⟩ := (eq_cellsFrom_iff _ _ _ _).1 hcs.symm
    exact ⟨rfl, hn, hl, hlen, fun k h => ⟨hk k h, hg k h⟩⟩
  · rintro ⟨rfl, hn, hl, hlen, hk⟩
    exact ⟨⟨hn, hl, fun k h => (hk k h).2⟩, rfl, ((eq_cellsFrom_iff _ _ _ _).2 ⟨hlen, fun k h => (hk k h).1⟩).symm⟩

/-- A drawing command that names its port's own window works on it (R20, R54). -/
theorem ownDrawing_named {s : State} {p : Port} {c : QCmd} {w : Window} (h : NamesOwn s p c w) (work : Progress → Window → SliceEnd) :
    ownDrawing s p c work = work (s.port p).progress w := by
  simp [ownDrawing, State.resolveOwn, h.1, h.2]

/-- One slice of a command that writes a rectangle of its port's own window in forward order (R52, R55, R67): the next 64 cells take
their values, all else in the memory is as it was, and the command ends or goes on. -/
theorem exec_drawsRect {s : State} {p : Port} {i : Instr} {k : CommandKind} {c : QCmd} {work : QCmd → State → SliceEnd} {w : Window}
    {r : Rect} {value : Nat → Cell} (hi : exec i s = .next (s.runSlice p k work)) (hserves : Serves s p k c) (hw : w ∈ s.windows)
    (hcanonical : s.StripsCanonical) (htable : s.TableAgrees) (hfits : rectOk w.sc w.sr r = true)
    (hn : (s.port p).progress.next ≤ r.w * r.h)
    (hwork : work c s = s.rectSlice (s.port p).progress false (r.w * r.h)
      (fun m n => Memory.setCell m w.stripMap w.sc (colOf r n) (rowOf r n) (value n))) :
    ∃ u : State, u = { s with memory := u.memory }
      ∧ (∀ col row, col < w.sc → row < w.sr → u.cellOf w col row =
          if contains r col row = true ∧ (s.port p).progress.next ≤ (row - r.row) * r.w + (col - r.col)
            ∧ (row - r.row) * r.w + (col - r.col) < (s.port p).progress.next + 64
          then value ((row - r.row) * r.w + (col - r.col)) else s.cellOf w col row)
      ∧ (∀ x ∈ s.windows, x.handle ≠ w.handle → ∀ col row, col < x.sc → row < x.sr → u.cellOf x col row = s.cellOf x col row)
      ∧ (∀ k, k ∉ w.stripMap → Memory.read u.memory k = Memory.read s.memory k)
      ∧ (r.w * r.h ≤ (s.port p).progress.next + 64 → exec i s = .next (u.concludes p c .ok .none (r.w * r.h)))
      ∧ ((s.port p).progress.next + 64 < r.w * r.h → exec i s = .next (State.arbitrate (State.setPort { u with slice := none } p
          { s.port p with progress := { (s.port p).progress with
              started := true, next := (s.port p).progress.next + 64, cellsDone := (s.port p).progress.next + 64
              backward := false } }))) := by
  obtain ⟨hcells, hothers, hstrips⟩ := State.writeUnits_rect value (s.port p).progress.next hw hcanonical htable hfits _ rfl
  obtain ⟨hlast, hmore⟩ := s.rectSlice_cases (s.port p).progress false (r.w * r.h) _ hn
  exact ⟨_, rfl, hcells, hothers, hstrips,
    fun h => hi.trans (congrArg Host.Outcome.next (State.runSlice_plain hserves (hwork.trans (hlast h)) rfl rfl rfl)),
    fun h => hi.trans (congrArg Host.Outcome.next (State.runSlice_plain hserves (hwork.trans (hmore h)) rfl rfl rfl))⟩

/-- Settles O33: the units of a slice are places in the window's own strips, told apart by column and row. -/
theorem fillAndPutWriteTheirCells : Obligations.FillAndPutWriteTheirCells := by
  refine ⟨fillOperands_eq_some_iff, putOperands_eq_some_iff, ?_⟩
  intro s p c w hnames hcanonical htable pr fits draws
  have hw : w ∈ s.windows := State.mem_of_windowOf hnames.1
  have hfits (r : Rect) : rectOk w.sc w.sr r = true ↔ fits r := rectOk_iff _ _ _
  constructor
  · refine fun hserves => ⟨fun ho => exec_ended rfl hserves ?_, fun r v ho => ⟨fun hr => exec_ended rfl hserves ?_, fun hr hn =>
      exec_drawsRect (value := fun _ => v) rfl hserves hw hcanonical htable ((hfits r).2 hr) hn ?_⟩⟩
    all_goals rw [ownDrawing_named hnames, ho]
    · exact if_neg (mt (hfits r).1 hr)
    · exact if_pos ((hfits r).2 hr)
  · refine fun hserves => ⟨fun ho => exec_ended rfl hserves ?_, fun r cs ho => ⟨fun hr => exec_ended rfl hserves ?_, fun hr hn =>
      exec_drawsRect (value := fun j => cs.getD j Cell.blank) rfl hserves hw hcanonical htable ((hfits r).2 hr) hn ?_⟩⟩
    all_goals rw [ownDrawing_named hnames, ho]
    · exact if_neg (mt (hfits r).1 hr)
    · exact if_pos ((hfits r).2 hr)

/-! ## A removal (R29) -/

/-- The windows after a recomputation are those before it, with their exposure brought up to date. -/
theorem State.recomputeExposure_windows (s : State) : s.recomputeExposure.windows = s.exposeFrom [] s.windows := by
  rw [s.recomputeExposure_records.1]

/-- A recomputation makes no stale handle good (R19). -/
theorem State.windowOf_recomputeExposure_none {s : State} {h : Handle} (hs : ∀ w ∈ s.windows, w.handle ≠ h) :
    s.recomputeExposure.windowOf h = none := by
  have hkept : KeptAll s.prof s.windows (s.exposeFrom [] s.windows) := ⟨_, s.exposeFrom_kept s.prof [] s.windows, .refl _⟩
  unfold State.windowOf
  rw [State.recomputeExposure_windows, List.find?_eq_none]
  intro x hx
  obtain ⟨w, hw, k⟩ := hkept.exists_of_mem hx
  simpa [k.handle] using hs w hw

/-- What a removal changes in each block (R11, R13, R19, R29, R144, R157). -/
theorem State.removeWindow_gone (s : State) (w : Window) (h1 : 1 ≤ w.handle.slot) (h24 : w.handle.slot ≤ 24) : ∃ v : State,
    v = { s with windows := s.windows.filter (fun x => x.handle != w.handle), retiring := s.retiring ++ w.stripMap
                 generations := v.generations, ports := v.ports }
      ∧ v.generationOf w.handle.slot = s.generationOf w.handle.slot + 1
      ∧ (∀ k, k ≠ w.handle.slot → 1 ≤ k → v.generationOf k = s.generationOf k)
      ∧ v.ports = (s.setPort w.owner { s.port w.owner with windowsHeld := (s.port w.owner).windowsHeld - 1
                                                           stripsHeld := (s.port w.owner).stripsHeld - w.stripMap.length }).ports
      ∧ (let eased : State := if s.focus = some w.handle then
            State.post { v with focus := none } w.owner (.focusLost .removed) (some w.handle) else v
        let told : State := match s.capture with
          | .captured h _ => if h = w.handle then
              State.post { eased with capture := .orphan } w.owner (.touchCancel .removed) (some w.handle) else eased
          | _ => eased
        s.removeWindow w = told.recomputeExposure)
      ∧ (s.removeWindow w).windowOf w.handle = none := by
  have hgen (n : Nat) (hn : 1 ≤ n) := s.generationOf_bumpGeneration h1 h24 hn
  refine ⟨s.removed w s.focus s.capture, rfl, ?_, fun k hk hk1 => ?_, rfl, ?_, ?_⟩
  · exact (hgen _ h1).trans (if_pos rfl)
  · exact (hgen k hk1).trans (if_neg hk)
  · have hcapture : ((s.removed w s.focus s.capture).withdrawFocus w.handle w.owner .removed).capture = s.capture := by
      rw [(State.withdrawFocus_records _ _ _ _).1]
      rfl
    show (((s.removed w s.focus s.capture).withdrawFocus w.handle w.owner .removed).cancelRemoved w.handle w.owner).recomputeExposure
      = _
    unfold State.cancelRemoved
    rw [hcapture]
    cases s.capture <;> rfl
  · obtain ⟨u, c, -, hr, he⟩ := s.removeWindow_cases w
    rw [he]
    refine State.windowOf_recomputeExposure_none fun x hx => ?_
    rw [hr.1] at hx
    simpa using (List.mem_filter.1 hx).2

/-- A removal changes neither a port's state, nor its stop mark, nor the waiting removal. -/
theorem State.removeWindow_keeps (s : State) (w : Window) (p : Port) :
    ((s.removeWindow w).port p).state = (s.port p).state ∧ ((s.removeWindow w).port p).stopMark = (s.port p).stopMark
      ∧ (s.removeWindow w).waitingRemoval = s.waitingRemoval := by
  obtain ⟨u, c, -, hr, he⟩ := s.removeWindow_cases w
  obtain ⟨h1, h2, h3⟩ := u.recomputeExposure_keeps p
  obtain ⟨g1, g2, g3⟩ := hr.keeps p
  rw [he, h1, h2, h3, g1, g2, g3]
  simp only [State.removed, State.port_setPort]
  refine ⟨?_, ?_, rfl⟩ <;> split <;> simp_all

/-- A port has a topmost window exactly when it has a window. -/
theorem State.topWindow_isSome (s : State) (p : Port) : (s.topWindow p).isSome = s.windows.any (fun x => x.owner == p) := by
  unfold State.topWindow
  rw [Bool.eq_iff_iff, List.find?_isSome, List.any_eq_true]

theorem State.completeTeardown_eq (s : State) (p : Port) : s.completeTeardown p =
    if s.windows.any (fun x => x.owner == p) then s
    else s.setPort p { s.port p with state := .detached, bank := Vector.replicate 64 blankPattern } := by
  rw [← State.topWindow_isSome]
  rcases s.completeTeardown_cases p with ⟨h, he⟩ | ⟨h, he⟩
  · rw [he, if_pos (Option.isSome_iff_ne_none.2 h)]
  · rw [he, h]; rfl

theorem State.teardownStep_eq {s : State} {p : Port} {w : Window} (h : s.topWindow p = some w) :
    s.teardownStep p = (s.removeWindow w).completeTeardown p := by
  unfold State.teardownStep
  rw [h]

theorem State.teardownStep_none {s : State} {p : Port} (h : s.topWindow p = none) : s.teardownStep p = s := by
  unfold State.teardownStep
  rw [h]

theorem State.tearingDown_iff (s : State) (p : Port) : s.tearingDown p = true ↔ (s.port p).state = .closing ∧ s.slice ≠ some p := by
  simp [State.tearingDown]

/-! ## A slice with a removal that waits for it (R81) -/

/-- The state with another removal waiting, or none. -/
def State.withWaiting (s : State) (r : Option Port) : State := { s with waitingRemoval := r }

/-- The end of a slice's work with another removal waiting, or none. -/
def SliceEnd.withWaiting (r : Option Port) : SliceEnd → SliceEnd
  | .ended st res cells s => .ended st res cells (s.withWaiting r)
  | .more pr s => .more pr (s.withWaiting r)
  | .parked s => .parked (s.withWaiting r)

/-- What the end of a slice's work leaves for the arbiter, the engine having given up the slice (R51, R55, R61, R63). -/
def SliceEnd.given (p : Port) (c : QCmd) (e : SliceEnd) (s : State) : State :=
  if (s.port p).state = .closing then s.endClosingSlice p
  else if (s.port p).stopMark then s.endCommand p c .aborted e.stoppedWith.1 e.stoppedWith.2
  else match e with
    | .ended st res cells _ => s.endCommand p c st res cells
    | .more pr _ => s.setPort p { s.port p with progress := pr }
    | .parked _ => s.setPort p { s.port p with progress := { (s.port p).progress with started := true }, waiter := true }

/-- The state after a slice has ended and before a removal that waits for it. -/
def SliceEnd.finished (p : Port) (c : QCmd) (e : SliceEnd) : State := (e.given p c { e.state with slice := none }).arbitrate

theorem finishSlice_eq (p : Port) (c : QCmd) (e : SliceEnd) : finishSlice p c e = (e.finished p c).takeWaitingRemoval := by
  cases e <;> rfl

theorem ite_withWaiting (b : Prop) [Decidable b] (s t : State) (r : Option Port) :
    (if b then s else t).withWaiting r = if b then s.withWaiting r else t.withWaiting r := by
  split <;> rfl

theorem State.post_withWaiting (s : State) (r : Option Port) (p : Port) (body : EventBody) (h : Option Handle) :
    (s.withWaiting r).post p body h = (s.post p body h).withWaiting r := by
  rw [State.post_eq, State.post_eq]
  rfl

theorem State.endCommand_withWaiting (s : State) (r : Option Port) (p : Port) (c : QCmd) (st : Status) (res : ResultPart) (cells : Nat) :
    (s.withWaiting r).endCommand p c st res cells = (s.endCommand p c st res cells).withWaiting r := by
  unfold State.endCommand
  cases reportRecord c st res cells with
  | none => rfl
  | some body => exact State.post_withWaiting (s.setPort p ((s.port p).popHead st)) r p body none

theorem State.completeTeardown_withWaiting (s : State) (r : Option Port) (p : Port) :
    (s.withWaiting r).completeTeardown p = (s.completeTeardown p).withWaiting r := by
  rw [State.completeTeardown_eq, State.completeTeardown_eq, ite_withWaiting]
  rfl

theorem State.endClosingSlice_withWaiting (s : State) (r : Option Port) (p : Port) :
    (s.withWaiting r).endClosingSlice p = (s.endClosingSlice p).withWaiting r := by
  unfold State.endClosingSlice State.teardownNotice
  rw [← State.completeTeardown_withWaiting]
  rfl

theorem State.arbitrate_withWaiting (s : State) (r : Option Port) : (s.withWaiting r).arbitrate = s.arbitrate.withWaiting r := by
  have hslice : (s.withWaiting r).slice = s.slice := rfl
  have hurgent : (s.withWaiting r).urgentPick = s.urgentPick := rfl
  have hnormal : (s.withWaiting r).normalPick = s.normalPick := rfl
  unfold State.arbitrate
  rw [hslice, hurgent, hnormal]
  cases s.slice with
  | some _ => rfl
  | none =>
    cases s.urgentPick <;> cases s.normalPick
    case some.some => dsimp only; rw [ite_withWaiting]; rfl
    all_goals rfl

/-- The end of a slice does not look at the removal that waits for it. -/
theorem SliceEnd.finished_withWaiting (p : Port) (c : QCmd) (e : SliceEnd) (r : Option Port) :
    (e.withWaiting r).finished p c = (e.finished p c).withWaiting r := by
  have hgiven (s : State) : (e.withWaiting r).given p c (s.withWaiting r) = (e.given p c s).withWaiting r := by
    unfold SliceEnd.given
    rw [State.endClosingSlice_withWaiting, State.endCommand_withWaiting, ite_withWaiting, ite_withWaiting]
    cases e with
    | ended st res cells u =>
      rw [← State.endCommand_withWaiting _ r p c st]
      cases st <;> rfl
    | more pr u => rfl
    | parked u => rfl
  have hstate : ({ (e.withWaiting r).state with slice := none } : State) = State.withWaiting { e.state with slice := none } r := by
    cases e <;> rfl
  unfold SliceEnd.finished
  rw [hstate, hgiven, State.arbitrate_withWaiting]

/-- The slice that is served to the head of its port. -/
theorem State.runSlice_head {s : State} {p : Port} {k : CommandKind} {c : QCmd} (h : HeadInFlight s p c) (hk : c.kind = k)
    (work : QCmd → State → SliceEnd) :
    s.runSlice p k work = finishSlice p c (if s.skips p c then .ended .skipped .none 0 s else work c s) := by
  obtain ⟨hs, hq⟩ := h
  unfold State.runSlice
  cases hql : (s.port p).queue with
  | nil => simp [hql] at hq
  | cons x rest =>
    have hx : x = c := by simpa [hql] using hq
    simp [hs, hx, hk]

/-- The work of a slice of COPY_RECT (R78 to R81). -/
def copyWork (p : Port) (c : QCmd) (s : State) : SliceEnd :=
  match s.resolveOwn p (handleAt c.payload 6) with
  | .error st => .ended st .none (s.port p).progress.cellsDone s
  | .ok w =>
    match (if (s.port p).progress.started then s.copyLaterChecks p c else s.copyFirstChecks p c w) with
    | .error st => .ended st .none (s.port p).progress.cellsDone s
    | .ok src =>
      s.copySlice (s.port p).progress w src c.payload
        (if (s.port p).progress.started then (s.port p).progress.backward
         else copyBackward (src.handle == w.handle) (rectAt c.payload 2) (copyTarget c.payload))

theorem exec_copyRect (p : Port) (s : State) : exec (.copyRect p) s = .next (s.runSlice p .copyRect (copyWork p)) := rfl

/-- The work of a copy does not look at the removal that waits for it (R81). -/
theorem copyWork_withWaiting (p : Port) (c : QCmd) (s : State) (r : Option Port) :
    copyWork p c (s.withWaiting r) = (copyWork p c s).withWaiting r := by
  have hown : (s.withWaiting r).resolveOwn = s.resolveOwn := rfl
  have hport : (s.withWaiting r).port p = s.port p := rfl
  have hlater : (s.withWaiting r).copyLaterChecks = s.copyLaterChecks := rfl
  have hfirst : (s.withWaiting r).copyFirstChecks = s.copyFirstChecks := rfl
  unfold copyWork
  rw [hown, hport, hlater, hfirst]
  cases s.resolveOwn p (handleAt c.payload 6) with
  | error st => rfl
  | ok w =>
    dsimp only
    cases (if (s.port p).progress.started then s.copyLaterChecks p c else s.copyFirstChecks p c w) with
    | error st => rfl
    | ok src =>
      dsimp only
      unfold State.copySlice State.rectSlice
      dsimp only
      split <;> rfl

/-- A slice of a copy for which a removal waits leaves what it would leave without it, and then the removal is taken where its
teardown is under way (R81). -/
theorem copyRect_waiting {s : State} {q : Port} {c : QCmd} {p : Port} (h : HeadInFlight s q c) (hk : c.kind = .copyRect)
    (hw : s.waitingRemoval = some p) : ∃ u : State, exec (.copyRect q) (s.withWaiting none) = .next u
      ∧ exec (.copyRect q) s = .next (if u.tearingDown p then u.teardownStep p else u) := by
  have hs : s = (s.withWaiting none).withWaiting (some p) := by rw [← hw]; rfl
  have hrun (r : Option Port) : (s.withWaiting r).runSlice q .copyRect (copyWork q)
      = (((if s.skips q c then .ended .skipped .none 0 s else copyWork q c s).finished q c).withWaiting r).takeWaitingRemoval := by
    rw [State.runSlice_head (s := s.withWaiting r) h hk, finishSlice_eq, ← SliceEnd.finished_withWaiting, copyWork_withWaiting]
    congr 2
    show (if s.skips q c then _ else _) = _
    split <;> rfl
  generalize (if s.skips q c then SliceEnd.ended .skipped .none 0 s else copyWork q c s).finished q c = f at hrun
  refine ⟨f.withWaiting none, ?_, ?_⟩
  · rw [exec_copyRect, hrun]; rfl
  · rw [exec_copyRect, show s.runSlice q .copyRect (copyWork q) = (s.withWaiting (some p)).runSlice q .copyRect (copyWork q) by
      rw [hs]; rfl, hrun]
    rfl

/-! ## DESTROY_WINDOW and the teardown -/

/-- A command that names its port's own window with a payload of the right length has its effect on that window. -/
theorem ownWindow_named {s : State} {p : Port} {c : QCmd} {w : Window} (h : NamesOwn s p c w) (n : Nat) (effect : Window → Effect) :
    ownWindow s p c n effect = if c.payload.length = n then effect w else .error .badArg := by
  simp [ownWindow, ownWindowAt, State.resolveOwn, h.1, h.2]

/-- Settles O27: the removal has every effect of `removeWindow_gone`, at once or after the slice of a copy it waits for. -/
theorem removalTakesTheWindowAway : Obligations.RemovalTakesTheWindowAway := by
  unfold Obligations.RemovalTakesTheWindowAway
  intro gone removes copied
  have hremoves (s : State) (p : Port) : removes s (s.teardownStep p) p := fun w hw h1 h24 =>
    ⟨s.removeWindow w, s.removeWindow_gone w h1 h24, by rw [State.teardownStep_eq hw, State.completeTeardown_eq]⟩
  have hwaits {s : State} {p : Port} {w : Window} (hw : s.topWindow p = some w) : s.removalWaits p = true ↔ copied s w.handle := by
    rw [State.removalWaits_iff]
    constructor
    · rintro ⟨w', q, c, hw', hc⟩
      cases hw.symm.trans hw'
      exact ⟨q, c, hc⟩
    · rintro ⟨q, c, hc⟩
      exact ⟨w, q, c, hw, hc⟩
  have hexec {s : State} {p : Port} (h : s.tearingDown p = true) : exec (.teardownRemoval p) s = .next (s.comeRemoval p) :=
    congrArg Host.Outcome.next (if_pos h)
  refine ⟨fun s p c w hserves hnames h1 h24 => ⟨fun hl => ?_, fun hl => ?_⟩, fun s p w hclosing hslice hw h1 h24 => ?_,
    fun s q c p hhead hk hw => ?_, fun s p h => ?_⟩
  · exact exec_ended rfl hserves (by rw [ownWindow_named hnames, if_neg hl]; rfl)
  · obtain ⟨hstate, hstop, hwaiting⟩ := s.removeWindow_keeps w p
    refine ⟨s.removeWindow w, congrArg Host.Outcome.next ?_, s.removeWindow_gone w h1 h24⟩
    exact State.runSlice_plain (e := .ended .ok .none 0 (s.removeWindow w)) hserves
      (by rw [ownWindow_named hnames, if_pos hl]; rfl) hstate hstop hwaiting
  · rw [hexec ((s.tearingDown_iff p).2 ⟨hclosing, hslice⟩)]
    rcases s.comeRemoval_cases p with ⟨hr, he⟩ | ⟨hr, he⟩
    · exact ⟨fun _ => by rw [he], fun hc => absurd ((hwaits hw).1 hr) hc⟩
    · exact ⟨fun hc => absurd ((hwaits hw).2 hc) (by simp [hr]), fun _ => ⟨_, rfl, he ▸ hremoves s p⟩⟩
  · obtain ⟨u, hu, ht⟩ := copyRect_waiting hhead hk hw
    refine ⟨u, _, hu, ht, fun hc hs => ?_, fun h => ?_⟩
    · rw [if_pos ((u.tearingDown_iff p).2 ⟨hc, hs⟩)]
      exact hremoves u p
    · by_cases htd : u.tearingDown p = true
      · obtain ⟨hc, hs⟩ := (u.tearingDown_iff p).1 htd
        have hnone : u.topWindow p = none :=
          List.find?_eq_none.2 fun x hx => by simpa using (h.resolve_left (not_not.2 hc)).resolve_left hs x hx
        rw [if_pos htd, State.teardownStep_none hnone]
      · rw [if_neg htd]
  · refine congrArg Host.Outcome.next (if_neg fun htd => ?_)
    obtain ⟨hc, hs⟩ := (s.tearingDown_iff p).1 htd
    exact h.elim (absurd hc) hs

/-! ## The frame start (R90) -/

/-- The state at a frame start before the waiters are completed (R90, R91, R99). -/
def State.frameLatched (s : State) : State :=
  { s with
    frameNumber := s.frameNumber + 1
    blinkCount := (s.blinkCount + 1) % 60
    latched := some s.composition
    available := s.available ++ s.retiring
    retiring := []
    brightness := s.effectiveBrightness s.composition
    scanRow := 0 }

theorem State.frameStart_eq (s : State) : s.frameStart = (allPorts.foldl State.completeMark s.frameLatched).arbitrate := rfl

/-- What a port holds after its FRAME_MARK waiter, if it has one, is completed at frame `n` and time `t` (R58, R96). -/
def PortRec.markDone (n t : BitVec 16) (q : PortRec) : PortRec :=
  if q.waiter then
    match q.queue.head?.map (fun c => reportRecord c .ok (.frame n) 0) with
    | none => q
    | some none => q.popHead .ok
    | some (some body) => if q.state.takesRecords then (q.popHead .ok).join ⟨body, t, none, false⟩ else q.popHead .ok
  else q

theorem State.completeMark_eq (s : State) (p : Port) :
    s.completeMark p = s.setPort p ((s.port p).markDone s.frameNumber s.timeBase) := by
  unfold State.completeMark PortRec.markDone
  split
  · cases (s.port p).queue with
    | nil => simp
    | cons c rest =>
      simp only [List.head?_cons, Option.map_some, State.endCommand]
      cases reportRecord c .ok (.frame s.frameNumber) 0 with
      | none => rfl
      | some body =>
        simp only [State.post_eq, State.port_setPort_self, PortRec.popHead_state, State.setPort_timeBase]
        simp [State.setPort]
  · simp

/-- Every waiter is completed, each in its own port (R58). -/
theorem State.foldl_completeMark (s : State) : ∃ ports : Vector PortRec 4,
    allPorts.foldl State.completeMark s = { s with ports := ports }
      ∧ ∀ p : Port, ports.get p = (s.port p).markDone s.frameNumber s.timeBase := by
  have h : ∀ q : Port, q = 0 ∨ q = 1 ∨ q = 2 ∨ q = 3 := by decide
  refine ⟨(allPorts.foldl State.completeMark s).ports, ?_, fun p => ?_⟩
  · simp only [allPorts, List.foldl_cons, List.foldl_nil, State.completeMark_eq]
    rfl
  · rw [State.ports_get]
    simp only [allPorts, List.foldl_cons, List.foldl_nil, State.completeMark_eq, State.port_setPort, State.setPort_frameNumber,
      State.setPort_timeBase]
    rcases h p with rfl | rfl | rfl | rfl <;> simp

/-! ## Brightness (R99) -/

theorem State.mem_liveLevels (s : State) (b : Nat) :
    b ∈ s.liveLevels ↔ ∃ p, (s.port p).state = .live ∧ (s.port p).brightness = some b := by
  have hall : ∀ p : Port, p ∈ allPorts := by decide
  simp [State.liveLevels, List.mem_filterMap, hall]

/-- The first stage of R99 is the highest level asked for, or the default where there is none. -/
theorem State.askedBrightness_eq (s : State) : s.askedBrightness = s.liveLevels.max?.getD s.prof.defaultBrightness := by
  unfold State.askedBrightness
  cases s.liveLevels <;> rfl

/-- The list holds a CRITICAL window when one is composed shown (R26). -/
theorem State.composition_critical (s : State) : s.composition.windows.any (fun w => w.band == .critical) = true
    ↔ ∃ w ∈ s.windows, s.rendering w ≠ none ∧ w.band = .critical := by
  simp only [State.composition, List.any_eq_true, List.mem_filterMap, Option.map_eq_some_iff, beq_iff_eq]
  constructor
  · rintro ⟨x, ⟨w, hw, r, hr, rfl⟩, hx⟩
    exact ⟨w, hw, by simp [hr], hx⟩
  · rintro ⟨w, hw, hr, hb⟩
    obtain ⟨r, hr⟩ := Option.ne_none_iff_exists'.1 hr
    exact ⟨_, ⟨w, hw, r, hr, rfl⟩, hb⟩

/-- The brightness of a frame, from the first stage (R99). -/
theorem State.effectiveBrightness_cases (s : State) {b : Nat} (hb : s.askedBrightness = b) :
    ((∃ w ∈ s.windows, s.rendering w ≠ none ∧ w.band = .critical) →
        s.effectiveBrightness s.composition = max b s.prof.criticalFloor)
      ∧ (¬ (∃ w ∈ s.windows, s.rendering w ≠ none ∧ w.band = .critical) → s.effectiveBrightness s.composition = b) := by
  unfold State.effectiveBrightness
  rw [← State.composition_critical, hb]
  exact ⟨fun h => if_pos h, fun h => if_neg h⟩

/-- A completed waiter's command ends OK with the frame number (R57, R58, R96). -/
theorem PortRec.markDone_waiter {q : PortRec} {c : QCmd} (n t : BitVec 16) (hw : q.waiter = true) (hq : q.queue.head? = some c)
    (hk : c.kind = .frameMark) :
    q.markDone n t = if c.report = true ∧ q.state.takesRecords = true
      then (q.popHead .ok).join ⟨.done ⟨c.tag, .frameMark, .ok, true, c.urgent, c.chain, none, .frame n⟩, t, none, false⟩
      else q.popHead .ok := by
  unfold PortRec.markDone reportRecord reportOf
  rw [if_pos hw, hq]
  cases hr : c.report
  · simp [hk, hr]
  · cases hs : q.state.takesRecords <;> simp [hk, hr, sliceBased]

/-- Settles O44: the waiters are completed port by port on the state that the compositor has latched. -/
theorem frameStartLatchesTheComposition : Obligations.FrameStartLatchesTheComposition := by
  refine ⟨fun s hd => congrArg Host.Outcome.next (if_neg hd), fun s hd hparked => ?_⟩
  intro asks critical
  obtain ⟨ports, hfold, hports⟩ := s.frameLatched.foldl_completeMark
  have hmark (p : Port) : ({ s.frameLatched with ports := ports } : State).port p = (s.port p).markDone (s.frameNumber + 1) s.timeBase :=
    hports p
  refine ⟨{ s.frameLatched with ports := ports }, ?_, rfl, rfl, rfl, rfl, rfl, rfl, rfl, fun b hb hmax => ?_, fun hnone => ?_,
    fun p hp => ?_, fun p c hp hc => ?_, rfl, rfl, rfl, ⟨rfl, rfl, rfl⟩, ⟨rfl, rfl, rfl⟩, ⟨rfl, rfl, rfl, rfl⟩, rfl, rfl, rfl, rfl, rfl,
    rfl, rfl, rfl, rfl⟩
  · rw [← hfold, ← State.frameStart_eq]
    exact congrArg Host.Outcome.next (if_pos hd)
  · refine s.effectiveBrightness_cases ?_
    have hlevels : s.liveLevels.max? = some b :=
      List.max?_eq_some_iff.2 ⟨(s.mem_liveLevels b).2 hb, fun b' hb' => hmax b' ((s.mem_liveLevels b').1 hb')⟩
    rw [State.askedBrightness_eq, hlevels]
    rfl
  · refine s.effectiveBrightness_cases ?_
    have hlevels : s.liveLevels = [] :=
      List.eq_nil_iff_forall_not_mem.2 fun b hb => hnone b ((s.mem_liveLevels b).1 hb)
    rw [State.askedBrightness_eq, hlevels]
    rfl
  · rw [hmark, PortRec.markDone, if_neg (by simp [hp])]
  · have hk : c.kind = .frameMark := by simpa [hc] using hparked p hp
    intro popped
    rw [hmark, PortRec.markDone_waiter _ _ hp hc hk, State.post_eq, State.port_setPort_self, State.port_setPort_self]
    refine ⟨fun hr => ?_, fun hr => ?_⟩
    · simp only [hr, true_and]
      rfl
    · simp only [hr]
      rfl

/-! ## Glyph patterns (R2, Table 1-2) -/

theorem getD_ofFn (f : Fin 16 → Byte) {y : Nat} (hy : y < 16) : (Vector.ofFn f).toList.getD y 0 = f ⟨y, hy⟩ := by
  simp [List.getD_eq_getElem?_getD, hy]

theorem getD_replicate (b : Byte) {y : Nat} (hy : y < 16) : (Vector.replicate 16 b).toList.getD y 0 = b := by
  rw [Vector.toList_replicate, List.getD_eq_getElem?_getD, List.getElem?_replicate, if_pos hy]
  rfl

/-- The centred dot is one pixel (log 4). -/
theorem dotPattern_set {x y : Nat} (hx : x < 8) (hy : y < 16) : (dotPattern.toList.getD y 0).getLsbD (7 - x) = true
    ↔ x = (if Config.dotLeft = true then 3 else 4) ∧ y = (if Config.dotUpper = true then 7 else 8) := by
  have hbit : ∀ x < 8, ((0x10#8).getLsbD (7 - x) = true ↔ x = 3) ∧ ((0x08#8).getLsbD (7 - x) = true ↔ x = 4) := by decide
  rw [dotPattern, getD_ofFn _ hy]
  by_cases hrow : y = if Config.dotUpper = true then 7 else 8
  · cases hl : Config.dotLeft
    · simpa [hrow] using (hbit x hx).2
    · simpa [hrow] using (hbit x hx).1
  · simp [hrow]

/-- The checker sets alternate pixels (R2, log 4). -/
theorem checkerPattern_set {x y : Nat} (hx : x < 8) (hy : y < 16) :
    (checkerPattern.toList.getD y 0).getLsbD (7 - x) = true ↔ ((x + y) % 2 = 0 ↔ Config.checkerFirst = true) := by
  have hbit : ∀ x < 8, ((0xAA#8).getLsbD (7 - x) = true ↔ x % 2 = 0) ∧ ((0x55#8).getLsbD (7 - x) = true ↔ x % 2 = 1) := by decide
  obtain ⟨heven, hodd⟩ := hbit x hx
  rw [checkerPattern, getD_ofFn _ hy]
  rcases Nat.mod_two_eq_zero_or_one y with hmod | hmod <;> cases Config.checkerFirst <;> simp [hmod, heven, hodd] <;> omega

theorem leftFill_set {x y i : Nat} (hx : x < 8) (hy : y < 16) (hi : i < 8) :
    ((leftFill (i + 1)).toList.getD y 0).getLsbD (7 - x) = true ↔ x < i + 1 := by
  have hbit : ∀ x < 8, ∀ i < 8, (0xFF#8 <<< (8 - (i + 1))).getLsbD (7 - x) = true ↔ x < i + 1 := by decide
  rw [leftFill, getD_replicate _ hy]
  exact hbit x hx i hi

theorem rightFill_set {x y i : Nat} (hx : x < 8) (hy : y < 16) (hi : i < 8) :
    ((rightFill (i + 1)).toList.getD y 0).getLsbD (7 - x) = true ↔ 8 ≤ x + (i + 1) := by
  have hbit : ∀ x < 8, ∀ i < 8, (0xFF#8 >>> (8 - (i + 1))).getLsbD (7 - x) = true ↔ 8 ≤ x + (i + 1) := by decide
  rw [rightFill, getD_replicate _ hy]
  exact hbit x hx i hi

theorem rowFill_set {inside : Nat → Bool} {x y : Nat} (hx : x < 8) (hy : y < 16) :
    ((rowFill inside).toList.getD y 0).getLsbD (7 - x) = true ↔ inside y = true := by
  have hbit : ∀ x < 8, (0xFF#8).getLsbD (7 - x) = true := by decide
  rw [rowFill, getD_ofFn _ hy]
  cases inside y <;> simp [hbit x hx]

/-- The bar segments in the order of Table 1-2 (log 4). -/
theorem barSegment_set {x y i : Nat} (hx : x < 8) (hy : y < 16) (hi : i < 8) :
    (((barSegment i).toList.getD y 0).getLsbD (7 - x) = true ↔ x < i + 1)
      ∧ (((barSegment (8 + i)).toList.getD y 0).getLsbD (7 - x) = true ↔ 16 ≤ y + 2 * (i + 1))
      ∧ (((barSegment (16 + i)).toList.getD y 0).getLsbD (7 - x) = true ↔ 8 ≤ x + (i + 1))
      ∧ (((barSegment (24 + i)).toList.getD y 0).getLsbD (7 - x) = true ↔ y < 2 * (i + 1)) := by
  refine ⟨?_, ?_, ?_, ?_⟩
  · rw [barSegment, if_pos hi]
    exact leftFill_set hx hy hi
  · rw [barSegment, if_neg (by omega), if_pos (by omega), rowFill_set hx hy, show 8 + i - 7 = i + 1 by omega]
    exact decide_eq_true_iff
  · rw [barSegment, if_neg (by omega), if_neg (by omega), if_pos (by omega), show 16 + i - 15 = i + 1 by omega]
    exact rightFill_set hx hy hi
  · rw [barSegment, if_neg (by omega), if_neg (by omega), if_neg (by omega), rowFill_set hx hy, show 24 + i - 23 = i + 1 by omega]
    exact decide_eq_true_iff

/-- The built-in patterns that R2 and Table 1-2 state, each by its code. -/
theorem builtinGlyph_segment {i : Nat} (hi : i < 32) : builtinGlyph (181 + i) = barSegment i := by
  unfold builtinGlyph
  rw [if_neg (by omega), if_neg (by omega), if_neg (by omega), if_neg (by omega), if_pos (by omega), Nat.add_sub_cancel_left]

/-! ## The visible map (R23, R92 to R94) -/

/-- The topmost window that contains a cell is the first of the list that does (R23). -/
theorem Latched.at_eq_some {l : Latched} {c r : Nat} {above below : List LatchedWindow} {x : LatchedWindow}
    (hl : l.windows = above ++ x :: below) (hx : contains x.view c r = true) (habove : ∀ y ∈ above, contains y.view c r = false) :
    l.at c r = some x := by
  rw [Latched.at, hl, List.find?_append, List.find?_eq_none.2 (by simpa using habove), List.find?_cons, hx]
  rfl

theorem Latched.at_eq_none {l : Latched} {c r : Nat} (h : ∀ x ∈ l.windows, contains x.view c r = false) : l.at c r = none :=
  List.find?_eq_none.2 (by simpa using h)

/-- A code below 256 selects a built-in pattern, and another a pattern of the owner's bank (R3, R93). -/
theorem State.patternOf_builtin (s : State) (owner : Option Port) {code : Nat} (h : code < 256) :
    s.patternOf owner code = builtinGlyph code := if_pos h

theorem State.patternOf_bank (s : State) (p : Port) (i : Fin 64) : s.patternOf (some p) (256 + i.val) = (s.port p).bank.get i := by
  have hi : i.val < (s.port p).bank.toList.length := by simp
  unfold State.patternOf
  rw [if_neg (by omega), Nat.add_sub_cancel_left]
  simp [List.getD_eq_getElem?_getD, Vector.get_eq_getElem]

/-- Settles O45: the row buffer is `fetchCell` in every column, and the patterns follow from the glyph code alone. -/
theorem scanFetchesTheVisibleMap : Obligations.ScanFetchesTheVisibleMap := by
  refine fun s => ⟨fun h => congrArg Host.Outcome.next ?_, fun l hl hd hrow => ?_⟩
  · cases hl : s.latched with
    | none => rfl
    | some l =>
      refine if_neg fun hc => ?_
      rcases h with h | h | h
      · rw [hl] at h; cases h
      · exact h hc.1
      · omega
  · refine ⟨s.scanNextRow l, ?_, rfl, by simp [State.scanNextRow], by simp [State.scanNextRow], fun col hcol => ?_⟩
    · refine congrArg Host.Outcome.next ?_
      rw [hl]
      exact if_pos ⟨hd, hrow⟩
    · refine ⟨s.fetchCell l col s.scanRow, by simp [State.scanNextRow, hcol], fun hnone => ?_, fun above x below hwin hx habove => ?_, ?_⟩
      · show s.screenCell l col s.scanRow = _
        rw [State.screenCell, Latched.at_eq_none hnone]
      · have hat := Latched.at_eq_some hwin hx habove
        obtain ⟨hc, -, hr, -⟩ := (contains_iff _ _ _).1 hx
        refine ⟨?_, fun i hi => ?_⟩
        · show s.screenCell l col s.scanRow = _
          rw [State.screenCell, hat]
          dsimp only
          cases x.rendering with
          | mark => rfl
          | normal => simp only [Nat.add_sub_assoc hc, Nat.add_sub_assoc hr]
        · show s.patternOf ((l.at col s.scanRow).map (·.owner)) (s.fetchCell l col s.scanRow).cell.glyph = _
          rw [hi, hat]
          exact s.patternOf_bank x.owner i
      · have hpattern {code : Nat} (hg : (s.fetchCell l col s.scanRow).cell.glyph = code) (hlt : code < 256) :
            (s.fetchCell l col s.scanRow).pattern = builtinGlyph code := by
          subst hg
          exact s.patternOf_builtin _ hlt
        refine ⟨fun hg => ?_, fun hg => hpattern hg (by omega), fun x y hx hy => ?_⟩
        · rcases hg with hg | hg <;> exact hpattern hg (by omega)
        · intro set
          refine ⟨fun hg => ?_, fun hg => ?_, fun i hi => ?_⟩
          · have hp := hpattern hg (by omega)
            simp only [set, hp]
            exact dotPattern_set hx hy
          · have hp := hpattern hg (by omega)
            simp only [set, hp]
            exact checkerPattern_set hx hy
          · obtain ⟨hleft, hbottom, hright, htop⟩ := barSegment_set hx hy hi
            have hsegment {n : Nat} (hg : (s.fetchCell l col s.scanRow).cell.glyph = 181 + n) (hn : n < 32) :
                (s.fetchCell l col s.scanRow).pattern = barSegment n :=
              (hpattern hg (by omega)).trans (builtinGlyph_segment hn)
            refine ⟨fun hg => ?_, fun hg => ?_, fun hg => ?_, fun hg => ?_⟩
            · simp only [set, hsegment hg (by omega)]
              exact hleft
            · simp only [set, hsegment (n := 8 + i) (by omega) (by omega)]
              exact hbottom
            · simp only [set, hsegment (n := 16 + i) (by omega) (by omega)]
              exact hright
            · simp only [set, hsegment (n := 24 + i) (by omega) (by omega)]
              exact htop

end Sys2Proof.Machine
end

section
namespace Sys2Proof.Machine

-- One theorem is checked at a time, for the memory limit.
set_option Elab.async false

/-! What a step can do to the scene, which is all that exposure is computed from: the windows in stack order with the fields that
decide it, and the port states. Every change either leaves the scene alone or recomputes exposure after it. -/

/-! ## Exposure in a stack (R24) -/

/-- A window with its exposure as it is under the views `above`. -/
def State.exposedUnder (s : State) (above : List Rect) (w : Window) : Window :=
  match s.rendering w with
  | none => { w with exposure := .none, visible := 0 }
  | some _ => { w with exposure := exposureClass (visibleCount above w.view) (w.view.w * w.view.h)
                       visible := visibleCount above w.view }

/-- The views that the windows below `w` are under: its own too, if it is composed shown (R24). -/
def State.viewsUnder (s : State) (above : List Rect) (w : Window) : List Rect :=
  if (s.rendering w).isSome then w.view :: above else above

theorem State.exposeFrom_cons (s : State) (above : List Rect) (w : Window) (ws : List Window) :
    s.exposeFrom above (w :: ws) = s.exposedUnder above w :: s.exposeFrom (s.viewsUnder above w) ws := by
  rw [State.exposeFrom, State.exposedUnder, State.viewsUnder]
  cases s.rendering w <;> rfl

/-- A rendering depends on the port states alone. -/
theorem State.rendering_congr {s t : State} (h : ∀ p, (t.port p).state = (s.port p).state) (w : Window) :
    t.rendering w = s.rendering w := by
  rw [State.rendering, State.rendering, h]

/-- The computed fields decide no rendering. -/
theorem State.rendering_exposedUnder (s t : State) (above : List Rect) (w : Window) :
    t.rendering (s.exposedUnder above w) = t.rendering w := by
  unfold State.exposedUnder
  split <;> rfl

/-- The window `x` in the state `t` is composed shown where `w` is in the state `s`, at the same view and with the same exposure. -/
structure ExposedAlike (s t : State) (w x : Window) : Prop where
  composed : (t.rendering x).isSome = (s.rendering w).isSome
  view : x.view = w.view
  exposure : x.exposure = w.exposure
  visible : x.visible = w.visible

theorem State.exposedUnder_eq_self_iff (s : State) (above : List Rect) (w : Window) : s.exposedUnder above w = w ↔
    w.exposure = (if (s.rendering w).isSome then exposureClass (visibleCount above w.view) (w.view.w * w.view.h) else .none)
      ∧ w.visible = if (s.rendering w).isSome then visibleCount above w.view else 0 := by
  unfold State.exposedUnder
  constructor
  · intro h
    cases hr : s.rendering w <;> rw [hr] at h <;> exact ⟨(congrArg Window.exposure h).symm, (congrArg Window.visible h).symm⟩
  · rintro ⟨he, hv⟩
    cases hr : s.rendering w <;> simp only [hr, Option.isSome_none, Option.isSome_some, if_true, Bool.false_eq_true, if_false] at he hv
    · rw [← he, ← hv]
    · rw [← he, ← hv]

/-- Exposure that is up to date stays so among windows that are alike. -/
theorem State.exposeFrom_alike {s t : State} {ws xs : List Window} (h : List.Forall₂ (ExposedAlike s t) ws xs) (above : List Rect)
    (hs : s.exposeFrom above ws = ws) : t.exposeFrom above xs = xs := by
  induction h generalizing above with
  | nil => rfl
  | @cons w x ws xs hx _ ih =>
    rw [State.exposeFrom_cons, List.cons.injEq, State.exposedUnder_eq_self_iff] at hs ⊢
    rw [State.viewsUnder, hx.composed, hx.view, hx.exposure, hx.visible]
    exact ⟨hs.1, ih _ hs.2⟩

/-- Exposure that has just been computed is up to date. -/
theorem State.exposeFrom_idem {s t : State} (h : ∀ w, t.rendering w = s.rendering w) (above : List Rect) (ws : List Window) :
    t.exposeFrom above (s.exposeFrom above ws) = s.exposeFrom above ws := by
  induction ws generalizing above with
  | nil => rfl
  | cons w ws ih =>
    have hview : (s.exposedUnder above w).view = w.view := by unfold State.exposedUnder; split <;> rfl
    have hr := (s.rendering_exposedUnder t above w).trans (h w)
    rw [State.exposeFrom_cons, State.exposeFrom_cons, List.cons.injEq]
    constructor
    · unfold State.exposedUnder at hr ⊢
      cases hw : s.rendering w <;> rw [hw] at hr <;> simp only at hr <;> rw [hr]
    · rw [State.viewsUnder, hr, hview]
      exact ih _

/-! ## The scene -/

/-- The fields of a window that its place in the stack and its exposure depend on (R21 to R24). -/
structure Outline where
  handle      : Handle
  owner       : Port
  band        : Band
  shown       : Bool
  view        : Rect
  lapsePolicy : LapsePolicy
  exposure    : Exposure
  visible     : Nat

def Window.outline (w : Window) : Outline :=
  ⟨w.handle, w.owner, w.band, w.shown, w.view, w.lapsePolicy, w.exposure, w.visible⟩

/-- The outlines of the windows in stack order, the strip memory and the port states. -/
def State.scene (s : State) : List Outline × Memory × (Port → PortState) :=
  (s.windows.map Window.outline, s.memory, fun p => (s.port p).state)

/-- The handle, the owner and the band, which alone place a window in the table and the stack. -/
def Outline.frame (o : Outline) : Handle × Port × Band := (o.handle, o.owner, o.band)

def Window.frame (w : Window) : Handle × Port × Band := w.outline.frame

/-- Every window's owner has a session or is being torn down, and the windows stand in slots of their own (R16, R42). -/
structure State.Owned (s : State) : Prop where
  owners : ∀ w ∈ s.windows, (s.port w.owner).state.engaged
  distinct : s.SlotsDistinct

/-- Every window's exposure is up to date (R24). -/
abbrev State.UpToDate (s : State) : Prop := s.exposeFrom [] s.windows = s.windows

/-- `t` follows `s` but for exposure, which is still to be recomputed. `Q` is what the step may count on at its start. -/
structure Restages (Q : Prop) (s t : State) : Prop where
  canonical : s.StripsCanonical → t.StripsCanonical
  bands : s.BandsInOrder → t.BandsInOrder
  owned : Q → s.Owned → t.Owned

/-- `t` follows `s` with everything in order. -/
structure Keeps (Q : Prop) (s t : State) : Prop extends Restages Q s t where
  upToDate : Q → s.Owned → s.UpToDate → t.UpToDate

section Following

variable {Q : Prop} {s t u : State}

theorem Restages.trans (h : Restages Q s t) (h' : Restages Q t u) : Restages Q s u :=
  ⟨h'.canonical ∘ h.canonical, h'.bands ∘ h.bands, fun q => h'.owned q ∘ h.owned q⟩

theorem Keeps.refl (s : State) : Keeps Q s s := ⟨⟨id, id, fun _ => id⟩, fun _ _ => id⟩

theorem Keeps.trans (h : Keeps Q s t) (h' : Keeps Q t u) : Keeps Q s u :=
  ⟨h.toRestages.trans h'.toRestages, fun q ho hs => h'.upToDate q (h.owned q ho) (h.upToDate q ho hs)⟩

/-- Outlines that are equal stand for windows that are pairwise alike. -/
theorem forall₂_outline {ws xs : List Window} (h : xs.map Window.outline = ws.map Window.outline) :
    List.Forall₂ (fun w x : Window => x.outline = w.outline) ws xs := by
  rw [← List.forall₂_eq_eq_eq, List.forall₂_map_left_iff, List.forall₂_map_right_iff] at h
  exact h.flip

/-- The windows stand in the same order, each with its handle, owner and band, and no session or teardown has ended. -/
theorem Restages.of_frames (hw : t.windows.map Window.frame = s.windows.map Window.frame)
    (hp : ∀ p, (s.port p).state.engaged → (t.port p).state.engaged) (hm : s.StripsCanonical → t.StripsCanonical) :
    Restages Q s t := by
  have hfield {α : Type} (f : Handle × Port × Band → α) : t.windows.map (f ∘ Window.frame) = s.windows.map (f ∘ Window.frame) := by
    rw [← List.map_map, hw, List.map_map]
  have hslots : t.windows.map (fun w => w.handle.slot) = s.windows.map (fun w => w.handle.slot) := hfield fun e => e.1.slot
  have howners : t.windows.map (fun w => w.owner) = s.windows.map (fun w => w.owner) := hfield fun e => e.2.1
  have hbands : t.windows.map (fun w => w.band) = s.windows.map (fun w => w.band) := hfield fun e => e.2.2
  refine ⟨hm, fun hb => ?_, fun _ ho => ⟨fun x hx => hp _ ?_, ?_⟩⟩
  · have hb : (s.windows.map (fun w => w.band)).Pairwise (fun a b => b.rank ≤ a.rank) := List.pairwise_map.2 hb
    exact List.pairwise_map.1 (hbands ▸ hb)
  · obtain ⟨w, hw, he⟩ := List.mem_map.1 (howners ▸ List.mem_map_of_mem (f := fun w : Window => w.owner) hx)
    exact he ▸ ho.owners w hw
  · rw [State.SlotsDistinct, hslots]
    exact ho.distinct

/-- Outlines and port states that are as before, in a memory that is still canonical. -/
theorem Keeps.of_outlines (hw : t.windows.map Window.outline = s.windows.map Window.outline)
    (hp : ∀ p, (t.port p).state = (s.port p).state) (hm : s.StripsCanonical → t.StripsCanonical) : Keeps Q s t where
  toRestages := by
    refine .of_frames ?_ (fun p h => by rwa [hp]) hm
    show t.windows.map (Outline.frame ∘ Window.outline) = s.windows.map (Outline.frame ∘ Window.outline)
    rw [← List.map_map, hw, List.map_map]
  upToDate _ _ := by
    refine State.exposeFrom_alike ((forall₂_outline hw).imp fun w x h => ?_) []
    obtain ⟨-, howner, hband, hshown, hview, hpolicy, hexposure, hvisible⟩ := Outline.mk.inj h
    refine ⟨?_, hview, hexposure, hvisible⟩
    rw [State.rendering_congr hp, State.rendering, State.rendering, howner]
    unfold renderingOf
    rw [hband, hshown, hpolicy]

/-- A change that leaves the scene alone. -/
theorem Keeps.of_scene (h : t.scene = s.scene) : Keeps Q s t := by
  obtain ⟨hw, hm, hp⟩ : _ ∧ t.memory = s.memory ∧ _ := ⟨congrArg Prod.fst h, congrArg (fun e => e.2.1) h, congrArg (fun e => e.2.2) h⟩
  exact .of_outlines hw (congrFun hp) fun hc => by rwa [State.StripsCanonical, hm]

/-- Windows changed one by one in fields that no outline shows, with or without a change of the memory. -/
theorem Keeps.of_map (g : Window → Window) (hg : ∀ w ∈ s.windows, (g w).outline = w.outline) (m : Memory)
    (hm : s.StripsCanonical → Memory.wf m = true) : Keeps Q s { s with windows := s.windows.map g, memory := m } :=
  .of_outlines ((List.map_map).trans (List.map_congr_left hg)) (fun _ => rfl) hm

/-- The recomputation changes the two computed fields of each window alone (R16, R24). -/
theorem State.exposeFrom_frames (s : State) (above : List Rect) (ws : List Window) :
    (s.exposeFrom above ws).map Window.frame = ws.map Window.frame := by
  induction ws generalizing above with
  | nil => rfl
  | cons w ws ih =>
    have hw : (s.exposedUnder above w).frame = w.frame := by unfold State.exposedUnder; split <;> rfl
    rw [State.exposeFrom_cons, List.map_cons, List.map_cons, ih, hw]

/-- A recomputation brings exposure up to date (R25). -/
theorem Keeps.recompute (h : Restages Q s u) : Keeps Q s u.recomputeExposure := by
  have hstate (p : Port) : (u.recomputeExposure.port p).state = (u.port p).state := (u.recomputeExposure_keeps p).1
  have hmemory : u.recomputeExposure.memory = u.memory := by rw [u.recomputeExposure_records.1]
  have hwindows := u.recomputeExposure_windows
  refine ⟨h.trans (.of_frames ?_ (fun p hp => by rwa [hstate]) fun hc => by rwa [State.StripsCanonical, hmemory]), fun _ _ _ => ?_⟩
  · rw [hwindows, State.exposeFrom_frames]
  · rw [State.UpToDate, hwindows]
    exact State.exposeFrom_idem (fun w => State.rendering_congr hstate w) _ _

/-! ## Changes of a port's state -/

/-- A change of what a port holds that leaves each of its windows with a session or a teardown, and composed shown or not as
before. -/
theorem Keeps.setPort (s : State) (p : Port) (r : PortRec) (h : Q → s.Owned → ∀ w ∈ s.windows, w.owner = p → r.state.engaged
    ∧ (renderingOf r.state w).isSome = (renderingOf (s.port p).state w).isSome) : Keeps Q s (s.setPort p r) where
  canonical := id
  bands := id
  owned q ho := by
    refine ⟨fun w hw => ?_, ho.distinct⟩
    rw [State.port_setPort]
    split
    · exact (h q ho w hw ‹_›).1
    · exact ho.owners w hw
  upToDate q ho := by
    refine State.exposeFrom_alike (List.forall₂_same.2 fun w hw => ⟨?_, rfl, rfl, rfl⟩) []
    rw [State.rendering, State.rendering, State.port_setPort]
    split
    · rename_i hp
      rw [(h q ho w hw hp).2, hp]
    · rfl

/-- A port without windows may take any state. -/
theorem Keeps.setPort_of_none (s : State) (p : Port) (r : PortRec) (h : Q → s.Owned → ∀ w ∈ s.windows, w.owner ≠ p) :
    Keeps Q s (s.setPort p r) :=
  .setPort s p r fun q ho w hw hp => absurd hp (h q ho w hw)

/-- A port takes any state that has a session or a teardown, with exposure to be recomputed. -/
theorem Restages.setPort (s : State) (p : Port) (r : PortRec) (h : r.state.engaged) : Restages Q s (s.setPort p r) := by
  refine .of_frames rfl (fun q hq => ?_) id
  rw [State.port_setPort]
  split <;> assumption

/-! ## The operations that leave the scene alone -/

theorem State.scene_setPort (s : State) (p : Port) (r : PortRec) (h : r.state = (s.port p).state := by rfl) :
    (s.setPort p r).scene = s.scene := by
  have hport : (fun q => ((s.setPort p r).port q).state) = fun q => (s.port q).state := by
    funext q
    rw [State.port_setPort]
    split
    · rename_i hq
      rw [hq, h]
    · rfl
  exact congrArg (fun e => (s.windows.map Window.outline, s.memory, e)) hport

theorem State.RecordsOnly.scene {s t : State} (h : s.RecordsOnly t) : t.scene = s.scene := by
  have hport : (fun q => (t.port q).state) = fun q => (s.port q).state := funext fun q => (h.keeps q).1
  rw [State.scene, hport, h.1]
  rfl

@[simp] theorem State.scene_post (s : State) (p : Port) (body : EventBody) (h : Option Handle) : (s.post p body h).scene = s.scene :=
  (State.post_records s p body h).scene

theorem State.scene_foldl {α : Type} (l : List α) (f : State → α → State) (hf : ∀ (s : State) a, (f s a).scene = s.scene) (s : State) :
    (l.foldl f s).scene = s.scene := by
  induction l generalizing s with
  | nil => rfl
  | cons a l ih => exact (ih _).trans (hf s a)

theorem State.scene_ite {s t : State} (c : Prop) [Decidable c] (h : c → t.scene = s.scene) : (if c then t else s).scene = s.scene := by
  split
  · exact h ‹_›
  · rfl

@[simp] theorem State.scene_placeReply (s : State) (p : Port) (r : Reply) : (s.placeReply p r).scene = s.scene := s.scene_setPort p _
@[simp] theorem State.scene_nak (s : State) (p : Port) (tag : Byte) (reason : NakReason) : (s.nak p tag reason).scene = s.scene :=
  s.scene_placeReply p _
@[simp] theorem State.scene_ack (s : State) (p : Port) (tag : Byte) (body : ReplyBody) : (s.ack p tag body).scene = s.scene :=
  s.scene_placeReply p _

/-! Focus, capture and tones. -/

@[simp] theorem State.scene_withdrawFocus (s : State) (h : Handle) (owner : Port) (reason : FocusReason) :
    (s.withdrawFocus h owner reason).scene = s.scene :=
  (State.withdrawFocus_records s h owner reason).scene

@[simp] theorem State.scene_moveFocus (s : State) (w : Window) : (s.moveFocus w).scene = s.scene := (State.moveFocus_records s w).scene

@[simp] theorem State.scene_cancelLapsed (s : State) (p : Port) : (s.cancelLapsed p).scene = s.scene := by
  rcases s.cancelLapsed_cases p with ⟨h, -, hr⟩ | ⟨-, hr⟩
  · exact hr.scene
  · rw [hr]

@[simp] theorem State.scene_lapseFocus (s : State) (p : Port) : (s.lapseFocus p).scene = s.scene := by
  unfold State.lapseFocus
  split
  · rfl
  · exact State.scene_ite _ fun _ => s.scene_withdrawFocus _ _ _

@[simp] theorem State.scene_releaseFocus (s : State) (p : Port) : (s.releaseFocus p).scene = s.scene := by
  unfold State.releaseFocus
  split
  · rfl
  · exact State.scene_ite _ fun _ => s.scene_withdrawFocus _ _ _

@[simp] theorem State.scene_chooseTone (s : State) : s.chooseTone.scene = s.scene := rfl

@[simp] theorem State.scene_endTone (s : State) (p : Port) (reason : ToneReason) : (s.endTone p reason).scene = s.scene := by
  rcases s.endTone_cases p reason with ⟨-, h⟩ | ⟨u, hr, h⟩ <;> rw [h]
  exact hr.scene.trans (s.scene_setPort p _)

@[simp] theorem State.scene_endToneIf (s : State) (p : Port) (bands : Band → Bool) (reason : ToneReason) :
    (s.endToneIf p bands reason).scene = s.scene := by
  unfold State.endToneIf
  split
  · rfl
  · exact State.scene_ite _ fun _ => s.scene_endTone p reason

@[simp] theorem State.scene_silence (s : State) : s.silence.scene = s.scene :=
  State.scene_foldl _ _ (fun s p => s.scene_endToneIf p _ _) s

@[simp] theorem State.scene_startTone (s : State) (p : Port) (o : ToneOperands) : (s.startTone p o).scene = s.scene := by
  have hbegin (u : State) : (u.beginTone p o).scene = u.scene := u.scene_setPort p { u.port p with tone := some (newTone o u.toneSeq) }
  unfold State.startTone
  simp only
  split <;> simp [hbegin]

/-! The engine and the frame. -/

@[simp] theorem State.scene_arbitrate (s : State) : s.arbitrate.scene = s.scene := by
  rw [s.arbitrate_frame]
  rfl

@[simp] theorem State.scene_endCommand (s : State) (p : Port) (c : QCmd) (st : Status) (res : ResultPart) (cells : Nat) :
    (s.endCommand p c st res cells).scene = s.scene :=
  (State.endCommand_records s p c st res cells).scene.trans (s.scene_setPort p _)

@[simp] theorem State.scene_completeMark (s : State) (p : Port) : (s.completeMark p).scene = s.scene := by
  unfold State.completeMark
  refine State.scene_ite _ fun _ => ?_
  split
  · rfl
  · exact s.scene_endCommand p _ _ _ _

@[simp] theorem State.scene_frameStart (s : State) : s.frameStart.scene = s.scene := by
  rw [s.frameStart_eq, State.scene_arbitrate]
  exact State.scene_foldl allPorts _ State.scene_completeMark s.frameLatched

/-! The host links. -/

@[simp] theorem State.scene_takeReadEvents (s : State) (p : Port) (tag : Byte) : (s.takeReadEvents p tag).scene = s.scene := by
  unfold State.takeReadEvents
  split
  case h_3 => exact s.scene_setPort p _
  case h_4 => exact s.scene_setPort p _
  all_goals exact s.scene_nak p tag _

@[simp] theorem State.scene_abortQueue (s : State) (p : Port) : (s.abortQueue p).scene = s.scene := by
  have hend : (match (s.port p).queue with
      | [] => s
      | c :: _ => (s.setPort p (s.port p).onlyHead).endCommand p c .aborted .none (s.port p).progress.cellsDone).scene = s.scene := by
    split
    · rfl
    · exact (State.scene_endCommand _ p _ _ _ _).trans (s.scene_setPort p _)
  unfold State.abortQueue
  split
  · rfl
  · exact s.scene_setPort p _
  · exact s.scene_setPort p _
  · exact hend
  · exact hend

@[simp] theorem State.scene_takeAbort (s : State) (p : Port) (tag : Byte) : (s.takeAbort p tag).scene = s.scene := by
  have htaken : (s.abortTaken p tag).scene = s.scene :=
    (State.scene_ack _ p tag _).trans ((State.scene_abortQueue _ p).trans (s.scene_setPort p _))
  unfold State.takeAbort
  split
  case h_3 => exact htaken
  case h_4 => exact htaken
  all_goals exact s.scene_nak p tag _

@[simp] theorem State.scene_takeCommand (s : State) (p : Port) (kind : CommandKind) (flags tag : Byte) (payload : List Byte) :
    (s.takeCommand p kind flags tag payload).scene = s.scene := by
  have henqueue : (s.enqueue p kind flags tag payload).scene = s.scene := by
    unfold State.enqueue
    simp only
    split
    · exact s.scene_placeReply p _
    · split
      · exact s.scene_nak p tag _
      · exact (State.scene_arbitrate _).trans ((State.scene_ack _ p tag _).trans (s.scene_setPort p _))
  unfold State.takeCommand
  split
  case h_3 => exact henqueue
  all_goals exact s.scene_nak p tag _

@[simp] theorem State.scene_failSend (s : State) (p : Port) (reason : NakReason) (tag : Byte) :
    (s.failSend p reason tag).scene = s.scene := by
  refine (State.scene_nak _ p tag reason).trans (s.scene_setPort p _ ?_)
  cases reason <;> rfl

@[simp] theorem State.scene_fetch (s : State) (p : Port) (part : FetchPart) : (s.fetch p part).scene = s.scene := by
  unfold State.fetch
  split
  · rfl
  · exact s.scene_setPort p _ ((s.port p).fetch_keeps part).1

/-! Touch and keys. -/

@[simp] theorem State.scene_routePress (s : State) (q : Pixel) : (s.routePress q).scene = s.scene := by
  have hfocus (u : State) (w : Window) : (u.pressFocus w).scene = u.scene := State.scene_ite _ fun _ => u.scene_moveFocus w
  unfold State.routePress
  split
  · rfl
  · exact (hfocus _ _).trans (State.scene_post _ _ _ _)

@[simp] theorem State.scene_contactUp (s : State) (q : Pixel) : (s.contactUp q).scene = s.scene := by
  unfold State.contactUp
  split
  · rfl
  · exact State.scene_routePress _ q

@[simp] theorem State.scene_contactDown (s : State) (q : Pixel) : (s.contactDown q).scene = s.scene := by
  have hmove (u : State) : (u.routeMove q).scene = u.scene := by
    unfold State.routeMove
    split
    · exact u.scene_post _ _ _
    · rfl
  unfold State.contactDown
  split
  · exact hmove _
  · rfl

@[simp] theorem State.scene_noContactDown (s : State) : s.noContactDown.scene = s.scene := by
  have hrelease (u : State) (q : Pixel) : (u.routeRelease q).scene = u.scene := by
    unfold State.routeRelease
    split
    · exact State.scene_post _ _ _ _
    · rfl
  unfold State.noContactDown
  split
  · rfl
  · split
    · rfl
    · exact hrelease _ _

@[simp] theorem State.scene_sampleTouch (s : State) (reading : TouchReading) : (s.sampleTouch reading).scene = s.scene := by
  unfold State.sampleTouch
  split
  · exact s.scene_contactUp _
  · exact s.scene_contactDown _
  · rfl
  · exact s.scene_noContactDown

@[simp] theorem State.scene_postCapture (s : State) (k : KeyId) (body : EventBody) : (s.postCapture k body).scene = s.scene := by
  unfold State.postCapture
  split
  · rfl
  · exact State.scene_foldl _ _ (fun s p => s.scene_post p body _) s

@[simp] theorem State.scene_acceptDown (s : State) (k : KeyId) : (s.acceptDown k).scene = s.scene := by
  have hpost (u : State) (c : KeyCapture) (body : EventBody) : (u.postKey c body).scene = u.scene :=
    State.scene_foldl _ _ (fun s p => s.scene_post p body _) u
  unfold State.acceptDown State.routeDown
  simp only
  split
  · exact (State.scene_silence _).trans (hpost _ _ _)
  · exact hpost _ _ _

@[simp] theorem State.scene_acceptUp (s : State) (k : KeyId) : (s.acceptUp k).scene = s.scene := s.scene_postCapture k _

@[simp] theorem State.scene_readKey (s : State) (k : KeyId) (pressed : Bool) : (s.readKey k pressed).scene = s.scene := by
  unfold State.readKey
  simp only
  split
  · rfl
  · split
    · rfl
    · split
      · exact s.scene_acceptDown k
      · exact s.scene_acceptUp k

/-! The time base. -/

@[simp] theorem State.scene_idle (s : State) : s.idle.scene = s.scene := by
  have htick : s.tick.scene = s.scene := by
    have hport : (fun p => (s.tick.port p).state) = fun p => (s.port p).state :=
      funext fun p => (congrArg PortRec.state (s.port_advanceTime p) : (s.advanceTime.port p).state = _)
    exact congrArg (fun e => (s.windows.map Window.outline, s.memory, e)) hport
  unfold State.idle
  split
  · rfl
  · split
    · rfl
    · exact htick

/-! ## The operations that recompute exposure, and those that end a teardown -/

theorem Restages.of_records (h : s.RecordsOnly t) : Restages Q s t := (Keeps.of_scene h.scene).toRestages

theorem Restages.removed (s : State) (w : Window) (f : Option Handle) (c : Capture) : Restages Q s (s.removed w f c) := by
  have hsub := takeOut_sublist w.handle s.windows
  have hstate (p : Port) : ((s.removed w f c).port p).state = (s.port p).state := by
    rw [State.removed, State.port_setPort]
    split
    · rename_i hp
      rw [hp]; rfl
    · rfl
  refine ⟨id, fun hb => hb.sublist hsub, fun _ ho => ⟨fun x hx => ?_, (hsub.map _).nodup ho.distinct⟩⟩
  rw [hstate]
  exact ho.owners x (hsub.subset hx)

theorem Keeps.removeWindow (s : State) (w : Window) : Keeps Q s (s.removeWindow w) := by
  obtain ⟨u, c, -, hr, h⟩ := s.removeWindow_cases w
  rw [h]
  exact .recompute ((Restages.removed s w _ c).trans (.of_records hr))

/-- A teardown completes once the port owns no window (R118). -/
theorem Keeps.completeTeardown (s : State) (p : Port) : Keeps Q s (s.completeTeardown p) := by
  rcases s.completeTeardown_cases p with ⟨-, h⟩ | ⟨hnone, h⟩ <;> rw [h]
  · exact .refl s
  · exact .setPort_of_none s p _ fun _ _ w hw => by simpa using List.find?_eq_none.1 hnone w hw

theorem Keeps.teardownNotice (s : State) (p : Port) : Keeps Q s (s.teardownNotice p) :=
  (Keeps.of_map (Window.ungrant p) (fun _ _ => rfl) s.memory id).trans (.completeTeardown _ p)

theorem Keeps.teardownStep (s : State) (p : Port) : Keeps Q s (s.teardownStep p) := by
  unfold State.teardownStep
  split
  · exact .refl s
  · exact (Keeps.removeWindow s _).trans (.completeTeardown _ p)

theorem Keeps.takeWaitingRemoval (s : State) : Keeps Q s s.takeWaitingRemoval := by
  have hclear : Keeps Q s { s with waitingRemoval := none } := .of_scene rfl
  rcases s.takeWaitingRemoval_cases with ⟨-, h⟩ | ⟨p, -, h⟩ <;> rw [h]
  · exact .refl s
  · split
    · exact hclear.trans (.teardownStep _ p)
    · exact hclear

theorem Keeps.comeRemoval (s : State) (p : Port) : Keeps Q s (s.comeRemoval p) := by
  rcases s.comeRemoval_cases p with ⟨-, h⟩ | ⟨-, h⟩ <;> rw [h]
  · exact .of_scene rfl
  · exact .teardownStep s p

/-- A port enters CLOSING from LIVE with a recomputation, and from LAPSED with its windows composed as before (R22, R25). -/
theorem Keeps.enterClosing (s : State) (p : Port) (h : (s.port p).state = .live ∨ (s.port p).state = .lapsed) :
    Keeps Q s (s.enterClosing p) := by
  have hinput : (((s.setPort p (s.port p).close).closeInput p).chooseTone).scene = (s.setPort p (s.port p).close).scene := rfl
  have hclose : Keeps Q s (if (s.port p).state == .live
      then (((s.setPort p (s.port p).close).closeInput p).chooseTone).recomputeExposure
      else ((s.setPort p (s.port p).close).closeInput p).chooseTone) := by
    rcases h with h | h <;> rw [h]
    · exact .recompute ((Restages.setPort s p _ (.inr (.inr rfl))).trans (Keeps.of_scene hinput).toRestages)
    · refine (Keeps.setPort s p _ fun _ _ w _ _ => ⟨.inr (.inr rfl), ?_⟩).trans (.of_scene hinput)
      rw [h]; rfl
  unfold State.enterClosing
  simp only
  split
  · exact hclose
  · exact (hclose.trans (.of_scene (State.scene_setPort _ p _))).trans (.teardownNotice _ p)

theorem Keeps.lapse (s : State) (p : Port) : Keeps Q s (s.lapse p) := by
  have hset : Restages Q s (s.setPort p { s.port p with state := .lapsed, lease := 0, grace := (s.portProf p).gracePeriod }) :=
    .setPort s p _ (.inr (.inl rfl))
  exact .recompute (hset.trans (Keeps.of_scene (by simp)).toRestages)

theorem Keeps.restore (s : State) (p : Port) : Keeps Q s (s.restore p) := 
  .recompute (.setPort s p ((s.port p).renewLease _) (.inl rfl))

/-! ## Slices -/

theorem Keeps.of_finishSlice {p : Port} {c : QCmd} {e : SliceEnd} (h : Keeps Q s e.state) : Keeps Q s (finishSlice p c e) := by
  have hfree : Keeps Q e.state { e.state with slice := none } := .of_scene rfl
  have hgiven (v : State) : Keeps Q v (e.given p c v) := by
    unfold SliceEnd.given
    split
    · refine Keeps.trans ?_ (.teardownNotice _ p)
      exact .of_scene (v.scene_setPort p _)
    · refine .of_scene ?_
      split
      · exact v.scene_endCommand p c _ _ _
      · split
        · exact v.scene_endCommand p c _ _ _
        · exact v.scene_setPort p _
        · exact v.scene_setPort p _
  rw [finishSlice_eq]
  exact (((h.trans hfree).trans (hgiven _)).trans (.of_scene (State.scene_arbitrate _))).trans (.takeWaitingRemoval _)

theorem Keeps.of_runSlice {p : Port} {k : CommandKind} {work : QCmd → State → SliceEnd}
    (h : ∀ c, s.slice = some p → Keeps Q s (work c s).state) : Keeps Q s (s.runSlice p k work) := by
  rcases s.runSlice_cases p k work with hr | ⟨c, ⟨hs, -⟩, -, hr⟩ <;> rw [hr]
  · exact .refl s
  · refine .of_finishSlice ?_
    split
    · exact .refl s
    · exact h c hs

theorem Keeps.of_oneSlice {e : Effect} (h : ∀ s' res, e = .ok (s', res) → Keeps Q s s') : Keeps Q s (oneSlice s e).state := by
  cases e with
  | error st => exact .refl s
  | ok r => exact h _ _ rfl

/-- The slice of a command that names its port's own window has its effect on a window of the table. -/
theorem Keeps.of_ownWindow {p : Port} {c : QCmd} {i n : Nat} {effect : Window → Effect}
    (h : ∀ w ∈ s.windows, ∀ s' res, effect w = .ok (s', res) → Keeps Q s s') :
    Keeps Q s (oneSlice s (ownWindowAt s p c i n effect)).state :=
  .of_oneSlice fun s' res he => by
    obtain ⟨w, hw, -, he⟩ := ownWindowAt_ok he
    exact h w hw s' res he

theorem Keeps.of_ownDrawing {p : Port} {c : QCmd} {work : Progress → Window → SliceEnd} (h : ∀ pr w, Keeps Q s (work pr w).state) :
    Keeps Q s (ownDrawing s p c work).state := by
  unfold ownDrawing
  simp only
  split
  · exact .refl s
  · exact h _ _

/-! ## The window commands -/

theorem Restages.created (s : State) (p : Port) (slot : Nat) (o : CreateOperands) (hf : s.freeSlot = some slot)
    (he : Q → (s.port p).state.engaged) : Restages Q s (s.created p slot o) := by
  obtain ⟨⟨-, -, hfree⟩, -⟩ := (s.freeSlot_eq_some_iff slot).1 hf
  have hperm := insertTop_perm (newWindow ⟨slot, s.generationOf slot⟩ p o (s.available.take (stripsOf o.sc o.sr))) s.windows
  have hstate (q : Port) : ((s.created p slot o).port q).state = (s.port q).state := by
    rw [State.created, State.port_setPort]
    split
    · rename_i hq
      rw [hq]
    · rfl
  refine ⟨fun hc => Memory.wf_fill _ _ _ hc, fun hb => insertTop_ordered _ _ hb, fun q ho => ⟨fun x hx => ?_, ?_⟩⟩
  · rw [hstate]
    rcases List.mem_cons.1 (hperm.mem_iff.1 hx) with rfl | hx
    · exact he q
    · exact ho.owners x hx
  · refine ((hperm.map _).nodup_iff).2 (List.nodup_cons.2 ⟨fun hin => ?_, ho.distinct⟩)
    obtain ⟨x, hx, hxs⟩ := List.mem_map.1 hin
    exact hfree x hx hxs

theorem Keeps.createWindow (s : State) (p : Port) (hQ : Q → s.SliceEngaged) :
    Keeps Q s (s.runSlice p .createWindow (fun c s => oneSlice s (s.createWindow p c))) :=
  .of_runSlice fun c hs => .of_oneSlice fun s' res he => by
    rcases s.createWindow_cases p c with ⟨st, h⟩ | ⟨o, slot, -, ha, h⟩ <;> rw [h] at he <;> cases he
    exact .recompute (.created s p slot o ha.free fun q => hQ q p hs)

/-- A window of the table taken out and put back in band order, with its handle and owner. -/
theorem Restages.restack {w x : Window} (hw : w ∈ s.windows) (hh : x.handle = w.handle) (ho : x.owner = w.owner) {l : List Window}
    (hl : l.Perm (x :: takeOut w.handle s.windows))
    (hb : (takeOut w.handle s.windows).Pairwise (fun a b => b.band.rank ≤ a.band.rank) →
      l.Pairwise (fun a b => b.band.rank ≤ a.band.rank)) : Restages Q s { s with windows := l } := by
  have hsub := takeOut_sublist w.handle s.windows
  refine ⟨id, fun h => hb (h.sublist hsub), fun _ howned => ⟨fun y hy => ?_, ?_⟩⟩
  · rcases List.mem_cons.1 (hl.mem_iff.1 hy) with rfl | hy
    · exact ho ▸ howned.owners w hw
    · exact howned.owners y (hsub.subset hy)
  · have hslots := (howned.distinct.perm_takeOut hw).map (fun w => w.handle.slot)
    refine ((hl.map _).trans ?_).nodup_iff.2 howned.distinct
    rw [List.map_cons, hh]
    exact hslots.symm

/-- A window changed in place in fields other than its handle, owner and band. -/
theorem Restages.updateWindow (s : State) (h : Handle) (g : Window → Window) (hg : ∀ w, (g w).frame = w.frame) :
    Restages Q s (s.updateWindow h g) := by
  refine .of_frames (List.map_map.trans (List.map_congr_left fun w _ => ?_)) (fun _ => id) id
  show (if w.handle = h then g w else w).frame = w.frame
  split
  · exact hg w
  · rfl

/-- A window changed in place in fields that its outline does not show. -/
theorem Keeps.updateWindow (s : State) (h : Handle) (g : Window → Window) (hg : ∀ w, (g w).outline = w.outline) :
    Keeps Q s (s.updateWindow h g) := by
  refine .of_map _ (fun w _ => ?_) s.memory id
  split
  · exact hg w
  · rfl

/-- A lapse policy decides no rendering while the owner is not silent (R22). -/
theorem renderingOf_policy {st : PortState} (h : st.silent = false) (w : Window) (o : ModeOperands) :
    renderingOf st (w.withModes o) = renderingOf st w := by
  cases st
  case lapsed => cases h
  case closing => cases h
  all_goals rfl

/-- SET_WINDOW_MODES recomputes exposure where a lapse policy could change a rendering (R36). -/
theorem Keeps.setModes {w : Window} (hw : w ∈ s.windows) (o : ModeOperands) : Keeps Q s (s.setModes w o) := by
  have hset : Restages Q s (s.updateWindow w.handle (fun w => w.withModes o)) := .updateWindow s _ _ fun _ => rfl
  have hfocus (u : State) : (if (w.withModes o).keyEligible then u else u.withdrawFocus w.handle w.owner .modes).scene = u.scene := by
    split
    · rfl
    · exact u.scene_withdrawFocus _ _ _
  unfold State.setModes
  simp only
  split
  · exact .recompute (hset.trans (Keeps.of_scene (hfocus _)).toRestages)
  · rename_i hpolicy
    refine Keeps.trans ⟨hset, fun _ ho => State.exposeFrom_alike (t := s.updateWindow w.handle (fun w => w.withModes o)) ?_ []⟩
      (.of_scene (hfocus _))
    refine List.forall₂_map_right_iff.2 (List.forall₂_same.2 fun x hx => ?_)
    split
    · rename_i hh
      rw [ho.distinct.eq_of_handle hw hx hh]
      refine ⟨congrArg Option.isSome ?_, rfl, rfl, rfl⟩
      show renderingOf (s.port w.owner).state (w.withModes o) = renderingOf (s.port w.owner).state w
      rcases not_and_or.1 hpolicy with hp | hp
      · unfold renderingOf
        rw [not_not.1 hp]
        rfl
      · exact renderingOf_policy (by simpa using hp) w o
    · exact ⟨rfl, rfl, rfl, rfl⟩


theorem Keeps.placeWindow {s' : State} {c : QCmd} {w : Window} {res : ResultPart} (h : s.placeWindow c w = .ok (s', res)) :
    Keeps Q s s' := by
  unfold State.placeWindow at h
  simp only at h
  split at h <;> cases h
  exact .recompute (.updateWindow s _ _ fun _ => rfl)

theorem Keeps.setBand {s' : State} {p : Port} {c : QCmd} {w : Window} {res : ResultPart} (hw : w ∈ s.windows)
    (h : s.setBand p c w = .ok (s', res)) : Keeps Q s s' := by
  unfold State.setBand at h
  split at h
  · cases h
  · rename_i b _
    split at h <;> cases h
    exact .recompute (.restack (x := { w with band := b }) hw rfl rfl (insertTop_perm _ _) (insertTop_ordered _ _))

theorem Keeps.grantRead {s' : State} {c : QCmd} {w : Window} {res : ResultPart} (h : s.grantRead c w = .ok (s', res)) :
    Keeps Q s s' := by
  unfold State.grantRead at h
  split at h
  · cases h
  · split at h
    · cases h
    · split at h
      · cases h
      · split at h <;> cases h
        · exact .refl s
        · exact .updateWindow s _ _ fun _ => rfl

theorem Keeps.requestFocus {s' : State} {w : Window} {res : ResultPart} (h : s.requestFocus w = .ok (s', res)) : Keeps Q s s' := by
  unfold State.requestFocus at h
  split at h
  · cases h
    exact .refl s
  · split at h <;> cases h
    exact .of_scene (s.scene_moveFocus w)

/-! ## Text and drawing -/

/-- Every unit of a text writes cells, scrolls or leaves the memory, so it stays canonical. -/
theorem TextRun.canonical_advance {r : TextRun} (h : Memory.wf r.memory = true) : Memory.wf r.advance.memory = true := by
  unfold TextRun.advance
  simp only
  split
  · exact h
  · split
    · exact Memory.wf_scroll _ _ _ _ h
    · exact h

theorem TextRun.canonical_item {r : TextRun} (h : Memory.wf r.memory = true) (it : TextItem) : Memory.wf (r.item it).memory = true := by
  match it with
  | .glyph code =>
    unfold TextRun.item
    simp only
    split
    · unfold TextRun.discard
      simp only
      split
      · exact Memory.wf_setCell _ _ _ _ _ _ h
      · exact h
    · unfold TextRun.glyph
      simp only
      split
      · exact Memory.wf_setCell _ _ _ _ _ _ h
      · split <;> exact Memory.wf_setCell _ _ _ _ _ _ h
  | .newLine => exact TextRun.canonical_advance (r := { r with next := r.next + 1, discarding := false, overflowDone := false }) h
  | .return => exact h

theorem textLoop_canonical (items : List TextItem) (n : Nat) {r : TextRun} (h : Memory.wf r.memory = true) :
    Memory.wf (textLoop items n r).memory = true := by
  induction n generalizing r with
  | zero => exact h
  | succ n ih =>
    unfold textLoop
    split
    · split
      · exact h
      · exact ih (r.canonical_advance h)
    · split
      · exact h
      · split
        · exact h
        · exact ih (r.canonical_item h _)

theorem Keeps.writeText (s : State) (pr : Progress) (w : Window) (items : List TextItem) :
    Keeps Q s (s.writeText pr w items).state := by
  have key (r : TextRun) (hr : s.StripsCanonical → Memory.wf r.memory = true) : Keeps Q s ({ s with memory := r.memory }.updateWindow
      w.handle (fun x => { x with curCol := r.win.curCol, curRow := r.win.curRow })) := by
    refine .of_map _ (fun x _ => ?_) r.memory hr
    split <;> rfl
  unfold State.writeText
  simp only
  split <;> exact key _ fun hc => textLoop_canonical items textFuel hc

/-- A slice that writes cells one after another (R52, R67). -/
theorem Keeps.rectSlice (s : State) (pr : Progress) (backward : Bool) (area sc : Nat) (map : List Nat) (col row : Nat → Nat)
    (value : Memory → Nat → Cell) :
    Keeps Q s (s.rectSlice pr backward area fun m n => Memory.setCell m map sc (col n) (row n) (value m n)).state := by
  have key : Keeps Q s { s with memory := (sliceUnits area pr.next).foldl (fun m n => Memory.setCell m map sc
      (col (unitIndex backward area n)) (row (unitIndex backward area n)) (value m (unitIndex backward area n))) s.memory } :=
    .of_outlines rfl (fun _ => rfl) fun hc => Memory.wf_foldl _ _ (fun m n hm => Memory.wf_setCell _ _ _ _ _ _ hm) _ hc
  unfold State.rectSlice
  simp only
  split <;> exact key

/-- The same after a check of its rectangle. -/
theorem Keeps.rectSlice_ite (s : State) (pr : Progress) (backward : Bool) (area sc : Nat) (map : List Nat) (col row : Nat → Nat)
    (value : Memory → Nat → Cell) (fits : Bool) (st : Status) (cells : Nat) :
    Keeps Q s (if fits then s.rectSlice pr backward area fun m n => Memory.setCell m map sc (col n) (row n) (value m n)
      else .ended st .none cells s).state := by
  split
  · exact .rectSlice s pr backward area sc map col row value
  · exact .refl s

/-! ## The profile and the links -/

/-- A profile is put in force while no port has a session, and so no window stands (R103, R182). -/
theorem Keeps.takeProfile (s : State) (e : Profile × Bool) (h : Q → ∀ p, (s.port p).state = .detached) : Keeps Q s (s.takeProfile e) := by
  have hnone (q : Q) (ho : s.Owned) : s.windows = [] := List.eq_nil_iff_forall_not_mem.2 fun w hw => by
    have := ho.owners w hw
    simp [h q, PortState.engaged] at this
  refine ⟨⟨id, id, fun q ho => ⟨fun w hw => ?_, ho.distinct⟩⟩, fun q ho _ => ?_⟩
  · have hw : w ∈ s.windows := hw
    rw [hnone q ho] at hw
    cases hw
  · have : (s.takeProfile e).windows = [] := hnone q ho
    rw [State.UpToDate, this]
    rfl

theorem Keeps.becomeReady (s : State) (image : Option (List Byte)) (first : TouchReading) (h : Q → ∀ p, (s.port p).state = .detached) :
    Keeps Q s (s.becomeReady image first) := by
  refine (Keeps.takeProfile s (loadedProfile image) h).trans (.of_scene ?_)
  unfold State.becomeReady
  simp only
  split
  · exact (State.scene_sampleTouch _ first).trans (State.scene_frameStart _)
  · exact State.scene_frameStart _

/-- A DETACHED port owns no window, so the start of its session changes no exposure. -/
theorem Keeps.takeAttach (s : State) (p : Port) (tag : Byte) : Keeps Q s (s.takeAttach p tag) := by
  unfold State.takeAttach
  split
  case h_2 hstate =>
    refine Keeps.trans ?_ (.of_scene (State.scene_ack _ p tag _))
    refine .setPort_of_none s p _ fun _ ho w hw hp => ?_
    have := ho.owners w hw
    rw [hp, hstate] at this
    simp [PortState.engaged] at this
  all_goals exact .of_scene (s.scene_nak p tag _)

theorem Keeps.takeRenew (s : State) (p : Port) (tag : Byte) : Keeps Q s (s.takeRenew p tag) := by
  unfold State.takeRenew
  simp only
  split
  case h_3 hstate => exact .of_scene ((State.scene_ack _ p tag _).trans (s.scene_setPort p _ hstate.symm))
  case h_4 => exact (Keeps.restore s p).trans (.of_scene ((State.scene_arbitrate _).trans (State.scene_ack _ p tag _)))
  all_goals exact .of_scene (s.scene_nak p tag _)

theorem Keeps.takeDetach (s : State) (p : Port) (tag : Byte) : Keeps Q s (s.takeDetach p tag) := by
  unfold State.takeDetach
  simp only
  split
  case h_3 hstate => exact (Keeps.enterClosing s p (.inl hstate)).trans (.of_scene (State.scene_ack _ p tag _))
  case h_4 hstate => exact (Keeps.enterClosing s p (.inr hstate)).trans (.of_scene (State.scene_ack _ p tag _))
  case h_5 => exact .of_scene (s.scene_ack p tag _)
  all_goals exact .of_scene (s.scene_nak p tag _)

theorem Keeps.answer {u : State} (p : Port) (tag : Byte) (h : Keeps Q s u) : Keeps Q s (s.answer p tag u) := by
  unfold State.answer
  split
  · exact .refl s
  · exact .of_scene (s.scene_nak p tag _)
  · exact h

theorem Keeps.takeFrame (s : State) (p : Port) (kind : FrameKind) (flags tag : Byte) (payload : List Byte) :
    Keeps Q s (s.takeFrame p kind flags tag payload) := by
  refine .answer p tag ?_
  cases kind with
  | attach => exact .takeAttach s p tag
  | detach => exact .takeDetach s p tag
  | renew => exact .takeRenew s p tag
  | readEvents => exact .of_scene (s.scene_takeReadEvents p tag)
  | status => exact .of_scene (s.scene_ack p tag _)
  | abort => exact .of_scene (s.scene_takeAbort p tag)
  | queued k => exact .of_scene (s.scene_takeCommand p k flags tag payload)

theorem Keeps.send (s : State) (p : Port) (bytes : List Byte) : Keeps Q s (s.send p bytes) := by
  unfold State.send
  split
  · exact .refl s
  · split
    · exact .of_scene (s.scene_failSend p _ _)
    · exact .takeFrame s p _ _ _ _

theorem Keeps.transaction (s : State) (p : Port) (bytes : List Byte) : Keeps Q s (s.transaction p bytes) := by
  rcases s.transaction_cases p bytes with ⟨rest, -, h⟩ | ⟨rest, -, h⟩ | ⟨-, -, h⟩ <;> rw [h]
  · exact .send s p rest
  · exact .of_scene (s.scene_fetch p _)
  · split
    · exact .refl s
    · exact .of_scene (s.scene_setPort p _)

/-! ## Every step -/

theorem Keeps.ite (c : Prop) [Decidable c] (h : c → Keeps Q s t) : Keeps Q s (if c then t else s) := by
  split
  · exact h ‹_›
  · exact .refl s

theorem Keeps.ite_scene (c : Prop) [Decidable c] (h : t.scene = s.scene) : Keeps Q s (if c then t else s) :=
  .ite c fun _ => .of_scene h

/-- With no window and an empty memory everything is in order. -/
theorem Keeps.of_reset (s : State) (d : DeviceState) (is : List Instr) : Keeps Q s { State.reset with device := d, pending := is } :=
  ⟨⟨fun _ => rfl, fun _ => .nil, fun _ _ => ⟨fun _ hw => (nomatch hw), .nil⟩⟩, fun _ _ _ => rfl⟩

/-- A meaning has a next state that follows with everything in order. -/
abbrev Leads (Q : Prop) (s : State) (o : Host.Outcome State Fault Refusal) : Prop := ∃ t, o = .next t ∧ Keeps Q s t

theorem execCopyRect_keeps (s : State) (p : Port) : Leads Q s (execCopyRect p s) := by
  refine ⟨_, rfl, .of_runSlice fun c _ => ?_⟩
  simp only
  split
  · exact .refl s
  · split
    · exact .refl s
    · unfold State.copySlice
      exact .rectSlice s _ _ _ _ _ _ _ _

theorem execReadCells_keeps (s : State) (p : Port) : Leads Q s (execReadCells p s) := by
  refine ⟨_, rfl, .of_runSlice fun c _ => ?_⟩
  split
  · exact .refl s
  · split
    · exact .refl s
    · split <;> exact .refl s

/-- Every command and event leads to a state with everything in order. What the step may count on: a port with a slice has a
session or is being torn down, and while the device is STARTING every port is DETACHED (R47, R61, R103). -/
theorem exec_keeps (i : Instr) (s : State) (hslice : Q → s.SliceEngaged) (hquiet : Q → s.QuietStart) : Leads Q s (exec i s) := by
  cases i with
  | deviceReset => exact ⟨_, rfl, .of_reset s .held _⟩
  | deviceResetEnd => exact ⟨_, rfl, .ite _ fun _ => .of_reset s .starting _⟩
  | profileLoadEnd image first =>
    refine ⟨_, rfl, .ite _ fun h => .becomeReady s image first fun q => hquiet q ?_⟩
    rw [h]
    decide
  | nakFraming p bytes => exact ⟨_, rfl, .send s p bytes⟩
  | fetch p part => exact ⟨_, rfl, .of_scene (s.scene_fetch p part)⟩
  | attach p tag => exact ⟨_, rfl, .answer p tag (.takeAttach s p tag)⟩
  | renew p tag => exact ⟨_, rfl, .answer p tag (.takeRenew s p tag)⟩
  | detach p tag => exact ⟨_, rfl, .answer p tag (.takeDetach s p tag)⟩
  | readEvents p tag => exact ⟨_, rfl, .answer p tag (.of_scene (s.scene_takeReadEvents p tag))⟩
  | status p tag => exact ⟨_, rfl, .answer p tag (.of_scene (s.scene_ack p tag _))⟩
  | abort p tag => exact ⟨_, rfl, .answer p tag (.of_scene (s.scene_takeAbort p tag))⟩
  | commandAdmission p kind flags tag payload =>
    refine ⟨_, rfl, ?_⟩
    split
    · exact .refl s
    · split
      · exact .of_scene (s.scene_nak p tag _)
      · exact .answer p tag (.of_scene (s.scene_takeCommand p kind flags tag payload))
  | createWindow p => exact ⟨_, rfl, .createWindow s p hslice⟩
  | destroyWindow p =>
    refine ⟨_, rfl, .of_runSlice fun c _ => .of_ownWindow fun w hw s' res he => ?_⟩
    cases he
    exact .removeWindow s w
  | placeWindow p => exact ⟨_, rfl, .of_runSlice fun c _ => .of_ownWindow fun w hw s' res he => .placeWindow he⟩
  | showWindow p =>
    refine ⟨_, rfl, .of_runSlice fun c _ => .of_ownWindow fun w hw s' res he => ?_⟩
    cases he
    exact .recompute (.updateWindow s _ _ fun _ => rfl)
  | hideWindow p =>
    refine ⟨_, rfl, .of_runSlice fun c _ => .of_ownWindow fun w hw s' res he => ?_⟩
    cases he
    exact .recompute (.trans (.updateWindow s _ (fun w => { w with shown := false }) fun _ => rfl)
      (Keeps.of_scene (State.scene_withdrawFocus _ _ _ _)).toRestages)
  | raiseWindow p =>
    refine ⟨_, rfl, .of_runSlice fun c _ => .of_ownWindow fun w hw s' res he => ?_⟩
    cases he
    exact .recompute (.restack hw rfl rfl (insertTop_perm _ _) (insertTop_ordered _ _))
  | lowerWindow p =>
    refine ⟨_, rfl, .of_runSlice fun c _ => .of_ownWindow fun w hw s' res he => ?_⟩
    cases he
    exact .recompute (.restack hw rfl rfl (insertBottom_perm _ _) (insertBottom_ordered _ _))
  | setBand p => exact ⟨_, rfl, .of_runSlice fun c _ => .of_ownWindow fun w hw s' res he => .setBand hw he⟩
  | setWindowModes p =>
    refine ⟨_, rfl, .of_runSlice fun c _ => .of_ownWindow fun w hw s' res he => ?_⟩
    split at he <;> cases he
    exact .setModes hw _
  | grantRead p => exact ⟨_, rfl, .of_runSlice fun c _ => .of_ownWindow fun w hw s' res he => .grantRead he⟩
  | revokeRead p =>
    refine ⟨_, rfl, .of_runSlice fun c _ => .of_ownWindow fun w hw s' res he => ?_⟩
    split at he <;> cases he
    exact .updateWindow s _ _ fun _ => rfl
  | queryWindow p =>
    refine ⟨_, rfl, .of_runSlice fun c _ => .of_oneSlice fun s' res he => ?_⟩
    split at he
    · cases he
    · split at he <;> cases he
      exact .refl s
  | setPen p =>
    refine ⟨_, rfl, .of_runSlice fun c _ => .of_ownWindow fun w hw s' res he => ?_⟩
    split at he <;> cases he
    exact .updateWindow s _ _ fun _ => rfl
  | setCursor p =>
    refine ⟨_, rfl, .of_runSlice fun c _ => .of_ownWindow fun w hw s' res he => ?_⟩
    split at he <;> cases he
    exact .updateWindow s _ _ fun _ => rfl
  | writeText p =>
    refine ⟨_, rfl, .of_runSlice fun c _ => .of_ownDrawing fun pr w => ?_⟩
    split
    · exact .refl s
    · exact .writeText s pr w _
  | putCells p =>
    refine ⟨_, rfl, .of_runSlice fun c _ => .of_ownDrawing fun pr w => ?_⟩
    split
    · exact .refl s
    · exact .rectSlice_ite s pr _ _ _ _ _ _ _ _ _ _
  | fillRect p =>
    refine ⟨_, rfl, .of_runSlice fun c _ => .of_ownDrawing fun pr w => ?_⟩
    split
    · exact .refl s
    · exact .rectSlice_ite s pr _ _ _ _ _ _ _ _ _ _
  | copyRect p => exact execCopyRect_keeps s p
  | shiftRect p =>
    refine ⟨_, rfl, .of_runSlice fun c _ => .of_ownDrawing fun pr w => ?_⟩
    split
    · exact .refl s
    · exact .rectSlice_ite s pr _ _ _ _ _ _ _ _ _ _
  | readCells p => exact execReadCells_keeps s p
  | loadGlyphs p =>
    refine ⟨_, rfl, .of_runSlice fun c _ => .of_oneSlice fun s' res he => ?_⟩
    split at he <;> cases he
    exact .of_scene (s.scene_setPort p _)
  | requestFocus p => exact ⟨_, rfl, .of_runSlice fun c _ => .of_ownWindow fun w hw s' res he => .requestFocus he⟩
  | releaseFocus p =>
    refine ⟨_, rfl, .of_runSlice fun c _ => .of_oneSlice fun s' res he => ?_⟩
    split at he <;> cases he
    exact .of_scene (s.scene_releaseFocus p)
  | toneStart p =>
    refine ⟨_, rfl, .of_runSlice fun c _ => .of_oneSlice fun s' res he => ?_⟩
    split at he
    · cases he
    · split at he <;> cases he
      exact .of_scene (s.scene_startTone p _)
  | toneStop p =>
    refine ⟨_, rfl, .of_runSlice fun c _ => .of_oneSlice fun s' res he => ?_⟩
    split at he <;> cases he
    exact .of_scene (s.scene_endTone p _)
  | setBrightness p =>
    refine ⟨_, rfl, .of_runSlice fun c _ => .of_oneSlice fun s' res he => ?_⟩
    split at he <;> cases he
    exact .of_scene (s.scene_setPort p _)
  | frameMark p =>
    refine ⟨_, rfl, .of_runSlice fun c _ => ?_⟩
    split <;> exact .refl s
  | frameStart => exact ⟨_, rfl, .ite_scene _ s.scene_frameStart⟩
  | touchSample reading => exact ⟨_, rfl, .ite_scene _ (s.scene_sampleTouch reading)⟩
  | pressReport x y => exact ⟨_, rfl, .ite_scene _ (s.scene_contactUp _)⟩
  | releaseReport => exact ⟨_, rfl, .ite_scene _ s.scene_noContactDown⟩
  | keyReading k pressed => exact ⟨_, rfl, .ite_scene _ (s.scene_readKey k pressed)⟩
  | downReport k => exact ⟨_, rfl, .ite_scene _ (s.scene_acceptDown k)⟩
  | repeatReport k => exact ⟨_, rfl, .ite_scene _ (State.scene_postCapture _ k _)⟩
  | upReport k => exact ⟨_, rfl, .ite_scene _ (s.scene_acceptUp k)⟩
  | leaseWarning p => exact ⟨_, rfl, .ite_scene _ ((State.scene_post _ p _ _).trans (s.scene_setPort p _))⟩
  | leaseExpiry p =>
    refine ⟨_, rfl, .ite _ fun h => ?_⟩
    unfold State.expireLease
    split
    · exact .enterClosing s p (.inl h.1)
    · exact .lapse s p
  | graceExpiry p => exact ⟨_, rfl, .ite _ fun h => .enterClosing s p (.inr h.1)⟩
  | teardownRemoval p => exact ⟨_, rfl, .ite _ fun _ => .comeRemoval s p⟩
  | toneExpiry p => exact ⟨_, rfl, .ite_scene _ (s.scene_endTone p _)⟩
  | tonePhaseChange => exact ⟨_, rfl, .of_scene rfl⟩
  | scanRowFetch =>
    refine ⟨_, rfl, ?_⟩
    split
    · exact .refl s
    · exact .ite_scene _ rfl
  | ignoredTransaction p bytes => exact ⟨_, rfl, .transaction s p bytes⟩

theorem step_keeps_scene (h : step s = .next t) (hslice : Q → s.SliceEngaged) (hquiet : Q → s.QuietStart) : Keeps Q s t := by
  unfold step at h
  split at h
  · cases h
    exact .of_scene s.scene_idle
  · rename_i i rest _
    obtain ⟨u, hu, hk⟩ := exec_keeps i { s with pending := rest } hslice hquiet
    rw [hu] at h
    cases h
    exact (Keeps.of_scene rfl : Keeps Q s { s with pending := rest }).trans hk

end Following

/-- Settles O52: a step keeps the memory canonical and the stack in band order, whatever state it starts from. -/
theorem stepKeepsTheStoreAndStackInOrder : Obligations.StepKeepsTheStoreAndStackInOrder := by
  intro s t hc hb h
  have hk : Keeps False s t := step_keeps_scene h False.elim False.elim
  exact ⟨hk.canonical hc, hk.bands hb⟩

/-- The quiet start and the engaged slice are kept by every elementary change of the table. -/
theorem TableChange.keeps_quiet (s t : State) (h : TableChange s t) (hs : s.Quiet) : t.Quiet := by
  cases h with
  | same h => exact h.quiet hs
  | @create p slot o h hp =>
    refine hs.congr rfl (fun q => ?_) rfl
    rw [State.created, State.port_setPort]
    split
    · rename_i hq
      rw [hq]
    · rfl
  | @remove w hw f c =>
    refine hs.congr rfl (fun q => ?_) rfl
    rw [State.removed, State.port_setPort]
    split
    · rename_i hq
      rw [hq]; rfl
    · rfl
  | reset d _ is => exact ⟨fun _ p => by rw [State.port_reset]; rfl, fun p hp => (nomatch hp)⟩
  | load e hd =>
    refine ⟨fun h => absurd rfl h, fun p hp => ?_⟩
    have := State.Quiet.ready_of_slice hs hp
    rw [hd] at this
    cases this

/-- Settles O58: a step brings exposure up to date wherever it changes what exposure is computed from. -/
theorem stepKeepsTheExposureAgreeing : Obligations.StepKeepsTheExposureAgreeing := by
  intro s t hs h
  obtain ⟨hquiet, hslice⟩ := step_keeps TableChange.keeps_quiet ⟨hs.quietStart, hs.sliceEngaged⟩ h
  have hk : Keeps True s t := step_keeps_scene h (fun _ => hs.sliceEngaged) (fun _ => hs.quietStart)
  have ho := hk.owned trivial ⟨hs.owners, hs.distinct⟩
  exact ⟨hquiet, hslice, ho.owners, ho.distinct, hk.upToDate trivial ⟨hs.owners, hs.distinct⟩ hs.exposed⟩

end Sys2Proof.Machine
end

section
namespace Sys2Proof.Machine

-- One theorem is checked at a time, for the memory limit.
set_option Elab.async false

/-! The window commands in a slice that serves them: each statement about a next state follows from what the command's effect is on
the window that its handle names. -/

/-! ## Handles are resolved first (R20) -/

/-- Only the slice-based commands report cells done (R57), so for any other it does not matter how many there are. -/
theorem State.concludes_cells {c : QCmd} (hc : sliceBased c.kind = false) (s : State) (p : Port) (st : Status) (res : ResultPart)
    (m n : Nat) : s.concludes p c st res m = s.concludes p c st res n := by
  have hreport : reportRecord c st res m = reportRecord c st res n := by simp [reportRecord, reportOf, hc]
  rw [State.concludes, State.concludes, State.endCommand, State.endCommand, hreport]

/-- A one-slice command that a check ends. -/
theorem exec_refused {s : State} {p : Port} {i : Instr} {k : CommandKind} {c : QCmd} {effect : QCmd → State → Effect} {st : Status}
    (hi : exec i s = .next (s.runSlice p k fun c s => oneSlice s (effect c s))) (h : Serves s p k c)
    (he : effect c s = .error st) : exec i s = .next (s.concludes p c st .none 0) :=
  exec_ended hi h (by rw [he]; rfl)

theorem ownWindowAt_error {s : State} {p : Port} {c : QCmd} {i n : Nat} {effect : Window → Effect} {st : Status}
    (h : s.resolveOwn p (handleAt c.payload i) = .error st) : ownWindowAt s p c i n effect = .error st := by
  rw [ownWindowAt, h]

theorem ownDrawing_error {s : State} {p : Port} {c : QCmd} {work : Progress → Window → SliceEnd} {st : Status}
    (h : s.resolveOwn p (handleAt c.payload 0) = .error st) :
    ownDrawing s p c work = .ended st .none (s.port p).progress.cellsDone s := by
  rw [ownDrawing, h]

theorem copyWork_error {s : State} {p : Port} {c : QCmd} {st : Status} (h : s.resolveOwn p (handleAt c.payload 6) = .error st) :
    copyWork p c s = .ended st .none (s.port p).progress.cellsDone s := by
  rw [copyWork, h]

/-- The one-slice commands that name their port's own window (R20, R66). -/
abbrev ownOneSliceKinds : List CommandKind := [.destroyWindow, .placeWindow, .showWindow, .hideWindow, .raiseWindow, .lowerWindow,
  .setBand, .setWindowModes, .grantRead, .revokeRead, .setPen, .setCursor, .requestFocus]

/-- The slice-based commands that name their port's own window by the handle their payload begins with (R52, R66). -/
abbrev ownDrawingKinds : List CommandKind := [.writeText, .putCells, .fillRect, .shiftRect]

/-- Every command that names its port's own window (R20). -/
abbrev ownKinds : List CommandKind := [.destroyWindow, .placeWindow, .showWindow, .hideWindow, .raiseWindow, .lowerWindow, .setBand,
  .setWindowModes, .grantRead, .revokeRead, .setPen, .setCursor, .writeText, .putCells, .fillRect, .copyRect, .shiftRect, .requestFocus]

/-- Resolution ends a one-slice command that names its port's own window (R20, R66). -/
theorem exec_unresolved_oneSlice {s : State} {p : Port} {k : CommandKind} {c : QCmd} {st : Status} (hk : k ∈ ownOneSliceKinds)
    (hserves : Serves s p k c) (h : s.resolveOwn p (handleAt c.payload (if k = .setWindowModes then 1 else 0)) = .error st) :
    exec (sliceOf k p) s = .next (s.concludes p c st .none 0) := by
  simp only [List.mem_cons, List.not_mem_nil, or_false] at hk
  rcases hk with rfl | rfl | rfl | rfl | rfl | rfl | rfl | rfl | rfl | rfl | rfl | rfl | rfl <;>
    exact exec_refused rfl hserves (ownWindowAt_error h)

/-- Resolution ends a drawing command at every slice, with the cells of its earlier slices done (R54). -/
theorem exec_unresolved_drawing {s : State} {p : Port} {k : CommandKind} {c : QCmd} {st : Status} (hk : k ∈ ownDrawingKinds)
    (hserves : Serves s p k c) (h : s.resolveOwn p (handleAt c.payload 0) = .error st) :
    exec (sliceOf k p) s = .next (s.concludes p c st .none (s.port p).progress.cellsDone) := by
  simp only [List.mem_cons, List.not_mem_nil, or_false] at hk
  rcases hk with rfl | rfl | rfl | rfl <;> exact exec_ended rfl hserves (ownDrawing_error h)

/-- A command that names its port's own window is of one of three sorts, by where its handle stands and how it reports. -/
theorem ownKinds_cases : ∀ k ∈ ownKinds, k = .copyRect ∨ (k ∈ ownDrawingKinds ∧ k ≠ .copyRect ∧ k ≠ .setWindowModes)
    ∨ (k ∈ ownOneSliceKinds ∧ k ≠ .copyRect ∧ sliceBased k = false) := by decide

/-- Resolution ends every command that names its port's own window, wherever its handle stands (R20, R78). -/
theorem exec_unresolved {s : State} {p : Port} {k : CommandKind} {c : QCmd} {st : Status} (hk : k ∈ ownKinds) (hserves : Serves s p k c)
    (h : s.resolveOwn p (handleAt c.payload (if k = .copyRect then 6 else if k = .setWindowModes then 1 else 0)) = .error st) :
    exec (sliceOf k p) s = .next (s.concludes p c st .none (s.port p).progress.cellsDone) := by
  rcases ownKinds_cases k hk with rfl | ⟨hdraws, hcopy, hmodes⟩ | ⟨hone, hcopy, hcells⟩
  · exact exec_ended (exec_copyRect p s) hserves (copyWork_error h)
  · rw [if_neg hcopy, if_neg hmodes] at h
    exact exec_unresolved_drawing hdraws hserves h
  · rw [if_neg hcopy] at h
    have ⟨_, hkind, _⟩ := hserves
    rw [exec_unresolved_oneSlice hone hserves h, State.concludes_cells (hkind ▸ hcells)]

theorem State.resolveOwn_stale {s : State} {p : Port} {h : Handle} (hw : s.windowOf h = none) : s.resolveOwn p h = .error .noWindow := by
  rw [State.resolveOwn, hw]

theorem State.resolveOwn_other {s : State} {p : Port} {h : Handle} {w : Window} (hw : s.windowOf h = some w) (ho : w.owner ≠ p) :
    s.resolveOwn p h = .error .notOwner := by
  rw [State.resolveOwn, hw]
  exact if_neg ho

theorem State.resolveRead_stale {s : State} {p : Port} {h : Handle} (hw : s.windowOf h = none) : s.resolveRead p h = .error .noWindow := by
  rw [State.resolveRead, hw]

theorem State.resolveRead_other {s : State} {p : Port} {h : Handle} {w : Window} (hw : s.windowOf h = some w) (ho : w.owner ≠ p)
    (hg : p ∉ w.grants) : s.resolveRead p h = .error .notPermitted := by
  rw [State.resolveRead, hw]
  exact if_neg (not_or.2 ⟨ho, hg⟩)

/-- Resolution ends the two commands that read a window (R39, R84). -/
theorem exec_unreadable {s : State} {p : Port} {k : CommandKind} {c : QCmd} {st : Status} (hk : k = .queryWindow ∨ k = .readCells)
    (hserves : Serves s p k c) (h : s.resolveRead p (handleAt c.payload 0) = .error st) :
    exec (sliceOf k p) s = .next (s.concludes p c st .none 0) := by
  rcases hk with rfl | rfl <;> refine exec_ended rfl hserves ?_ <;> rw [h]
  rfl

/-- Settles O24: every command resolves its handle before anything else, and a failed resolution ends it. -/
theorem handlesAreResolvedFirst : Obligations.HandlesAreResolvedFirst := by
  refine ⟨fun _ _ => rfl, fun s p k c hk hserves => ?_, fun s p k c hk hserves => ?_⟩
  · intro h
    exact ⟨fun hw => exec_unresolved hk hserves (State.resolveOwn_stale hw),
      fun w hw ho => exec_unresolved hk hserves (State.resolveOwn_other hw ho)⟩
  · exact ⟨fun hw => exec_unreadable hk hserves (State.resolveRead_stale hw),
      fun w hw ho hg => exec_unreadable hk hserves (State.resolveRead_other hw ho hg)⟩

/-! ## A slice that takes its effect -/

/-- `u` has what the end of port `p`'s slice looks at as `s` has it: the port's state, its stop mark and the waiting removal. -/
abbrev EndsAlike (p : Port) (s u : State) : Prop :=
  (u.port p).state = (s.port p).state ∧ (u.port p).stopMark = (s.port p).stopMark ∧ u.waitingRemoval = s.waitingRemoval

theorem EndsAlike.recompute {p : Port} {s u : State} (h : EndsAlike p s u) : EndsAlike p s u.recomputeExposure := by
  obtain ⟨h1, h2, h3⟩ := h
  obtain ⟨g1, g2, g3⟩ := u.recomputeExposure_keeps p
  exact ⟨g1.trans h1, g2.trans h2, g3.trans h3⟩

theorem EndsAlike.withdrawFocus {p : Port} {s u : State} (h : EndsAlike p s u) (hd : Handle) (q : Port) (reason : FocusReason) :
    EndsAlike p s (u.withdrawFocus hd q reason) := by
  obtain ⟨h1, h2, h3⟩ := h
  obtain ⟨g1, g2, g3⟩ := (State.withdrawFocus_records u hd q reason).keeps p
  exact ⟨g1.trans h1, g2.trans h2, g3.trans h3⟩

/-- A one-slice command that takes its effect ends OK in the state that the effect leaves. -/
theorem exec_takes {s u : State} {p : Port} {i : Instr} {k : CommandKind} {c : QCmd} {effect : QCmd → State → Effect}
    {res : ResultPart} (hi : exec i s = .next (s.runSlice p k fun c s => oneSlice s (effect c s))) (h : Serves s p k c)
    (he : effect c s = .ok (u, res)) (hu : EndsAlike p s u := by exact ⟨rfl, rfl, rfl⟩) :
    exec i s = .next (u.concludes p c .ok res 0) :=
  hi.trans (congrArg Host.Outcome.next (State.runSlice_plain (e := .ended .ok res 0 u) h (by rw [he]; rfl) hu.1 hu.2.1 hu.2.2))

theorem ownWindow_badLength {s : State} {p : Port} {c : QCmd} {w : Window} {n : Nat} {effect : Window → Effect} (h : NamesOwn s p c w)
    (hn : c.payload.length ≠ n) : ownWindow s p c n effect = .error .badArg :=
  (ownWindow_named h n effect).trans (if_neg hn)

theorem ownWindow_effect {s : State} {p : Port} {c : QCmd} {w : Window} {n : Nat} {effect : Window → Effect} (h : NamesOwn s p c w)
    (hn : c.payload.length = n) : ownWindow s p c n effect = effect w :=
  (ownWindow_named h n effect).trans (if_pos hn)

/-! ## Grants and queries (R37 to R39) -/

theorem portOf_val (g : Port) : portOf g.val = some g := by
  revert g; decide

theorem portOf_none {n : Nat} (h : 3 < n) : portOf n = none := by
  unfold portOf
  split
  case h_5 => rfl
  all_goals omega

theorem PortState.takesRecords_iff (st : PortState) : st.takesRecords = true ↔ st = .live ∨ st = .lapsed := by
  cases st <;> simp [PortState.takesRecords]

/-- The checks of a grant on a port that exists, in the order of R37. -/
theorem State.grantRead_eq {s : State} {c : QCmd} {w : Window} {g : Port} (hg : byteAt c.payload 2 = g.val) : s.grantRead c w =
    if g = w.owner then .error .badArg
    else if !(s.port g).state.takesRecords then .error .badArg
    else if g ∈ w.grants then .ok (s, .none)
    else .ok (s.updateWindow w.handle (fun w => { w with grants := w.grants ++ [g] }), .none) := by
  rw [State.grantRead, hg, portOf_val]

/-- Settles O31: the checks in their order, and the effect on the named window alone. -/
theorem grantsAndQueries : Obligations.GrantsAndQueries := by
  refine fun s p c w => ⟨fun hserves hnames => ⟨fun hl => ?_, fun hl hb => ?_, fun g hl hg => ?_⟩,
    fun hserves hnames => ⟨fun h => ?_, fun g hl hg => ?_⟩, fun hserves hnames => ⟨fun hl => ?_, fun hl => ?_⟩⟩
  · exact exec_refused rfl hserves (ownWindow_badLength hnames hl)
  · refine exec_refused rfl hserves ((ownWindow_effect hnames hl).trans ?_)
    rw [State.grantRead, portOf_none hb]
  · obtain ⟨hw, rfl⟩ := hnames
    have heffect := (ownWindow_effect (effect := s.grantRead c) ⟨hw, rfl⟩ hl).trans (State.grantRead_eq hg)
    refine ⟨fun h => exec_refused rfl hserves (heffect.trans ?_), fun hne hst hin => exec_takes rfl hserves (heffect.trans ?_),
      fun hne hst hin => exec_takes rfl hserves (heffect.trans ?_)⟩
    · rcases h with h | h
      · exact if_pos h
      · have hst : (s.port g).state.takesRecords = false := by
          rw [← Bool.not_eq_true, PortState.takesRecords_iff]
          exact not_or.2 h
        simp [hst]
    · simp [hne, (PortState.takesRecords_iff _).2 hst, hin]
    · simp [hne, (PortState.takesRecords_iff _).2 hst, hin]
      rfl
  · refine exec_refused rfl hserves ?_
    by_cases hl : c.payload.length = 3
    · rw [ownWindow_effect hnames hl, portOf_none (h.resolve_left (not_not.2 hl))]
    · exact ownWindow_badLength hnames hl
  · refine exec_takes rfl hserves ?_
    rw [ownWindow_effect hnames hl, hg, portOf_val]
    rfl
  · have hread : s.resolveRead p (handleAt c.payload 0) = .ok w := by
      rw [State.resolveRead, hnames.1]
      exact if_pos hnames.2
    refine exec_refused rfl hserves ?_
    rw [hread]
    exact if_neg hl
  · have hread : s.resolveRead p (handleAt c.payload 0) = .ok w := by
      rw [State.resolveRead, hnames.1]
      exact if_pos hnames.2
    refine exec_takes rfl hserves ?_
    rw [hread]
    exact if_pos hl

/-! ## The stack (R34, R35) -/

/-- In a stack in band order the bottom of a band lies above every window of a lower band and below all others (R21). -/
theorem insertBottom_eq (w : Window) (ws : List Window) (h : ws.Pairwise (fun a b => b.band.rank ≤ a.band.rank)) :
    insertBottom w ws = ws.filter (fun x => decide (w.band.rank ≤ x.band.rank)) ++ [w]
      ++ ws.filter (fun x => !decide (w.band.rank ≤ x.band.rank)) := by
  induction ws with
  | nil => rfl
  | cons x xs ih =>
    obtain ⟨hx, hxs⟩ := List.pairwise_cons.1 h
    unfold insertBottom
    split
    · rename_i hlt
      have hall : ∀ y ∈ x :: xs, ¬ w.band.rank ≤ y.band.rank := by
        intro y hy
        rcases List.mem_cons.1 hy with rfl | hy
        · omega
        · have := hx y hy; omega
      rw [List.filter_eq_nil_iff.2 (by simpa using hall), List.filter_eq_self.2 (by simpa using hall)]
      rfl
    · rename_i hge
      have hle : w.band.rank ≤ x.band.rank := by omega
      simp [ih hxs, hle]

/-- Settles O29: the window is taken out and put back at one end of its band, which the two `insert` equations name. -/
theorem stackMovesKeepTheOthersInOrder : Obligations.StackMovesKeepTheOthersInOrder := by
  intro s p c w hnames hbands others moved
  have horder : others.Pairwise (fun a b => b.band.rank ≤ a.band.rank) := hbands.sublist List.filter_sublist
  have hmoved (ws : List Window) : EndsAlike p s (State.recomputeExposure { s with windows := ws }) :=
    EndsAlike.recompute ⟨rfl, rfl, rfl⟩
  refine ⟨fun hserves hl => ?_, fun hserves hl => ?_, fun hserves hl b hb => ⟨fun hmax => ?_, fun hmax => ?_⟩, fun hserves hl => ?_,
    fun hserves hl => ?_, fun hserves h => ?_⟩
  · rw [← insertTop_eq w others horder]
    exact exec_takes rfl hserves (ownWindow_effect hnames hl) (hmoved _)
  · rw [← insertBottom_eq w others horder]
    exact exec_takes rfl hserves (ownWindow_effect hnames hl) (hmoved _)
  · refine exec_refused rfl hserves ((ownWindow_effect hnames hl).trans ?_)
    rw [State.setBand, hb]
    exact if_pos hmax
  · rw [← insertTop_eq { w with band := b } others horder]
    refine exec_takes rfl hserves ((ownWindow_effect hnames hl).trans ?_) (hmoved _)
    rw [State.setBand, hb]
    exact if_neg (Nat.not_lt.2 hmax)
  · exact exec_refused rfl hserves (ownWindow_badLength hnames hl)
  · exact exec_refused rfl hserves (ownWindow_badLength hnames hl)
  · refine exec_refused rfl hserves ?_
    by_cases hl : c.payload.length = 3
    · rw [ownWindow_effect hnames hl, State.setBand, h.resolve_left (not_not.2 hl)]
    · exact ownWindow_badLength hnames hl

end Sys2Proof.Machine
end

section
namespace Sys2Proof.Machine

-- One theorem is checked at a time, for the memory limit.
set_option Elab.async false

/-! ## The operands of SET_WINDOW_MODES (R36, R174) -/

/-- An operand that its presence bit marks must have a meaning, and an absent one is none (R36). -/
theorem optionalOperand_eq_some_iff {α : Type} (here : Bool) (x v : Option α) :
    optionalOperand here x = some v ↔ if here = true then v ≠ none ∧ v = x else v = none := by
  unfold optionalOperand
  cases here
  · simp [eq_comm]
  · cases x <;> cases v <;> simp [eq_comm]

/-- Every operand has its meaning, the payload its length, and bit 7 is clear or not refused (R36, R174, log 6). -/
theorem modeOperands_eq_some_iff (pl : List Byte) (o : ModeOperands) :
    let here (i : Nat) : Bool := (pl.getD 0 0).getLsbD i
    let place (i : Nat) : Nat := modeAt (pl.getD 0 0) i
    modeOperands pl = some o ↔
      optionalOperand (here 0) (boolOf (byteAt pl (place 0))) = some o.wrap
        ∧ optionalOperand (here 1) (boolOf (byteAt pl (place 1))) = some o.autoscroll
        ∧ optionalOperand (here 2) (boolOf (byteAt pl (place 2))) = some o.cursorShown
        ∧ optionalOperand (here 3) (touchModeOf (byteAt pl (place 3))) = some o.touchMode
        ∧ optionalOperand (here 4) (boolOf (byteAt pl (place 4))) = some o.keyEligible
        ∧ optionalOperand (here 5) (lapsePolicyOf (byteAt pl (place 5))) = some o.lapsePolicy
        ∧ optionalOperand (here 6) (if glyphOk (cellAt pl (place 6)) then some (cellAt pl (place 6)) else none) = some o.clear
        ∧ pl.length = place 6 + (if here 6 then 3 else 0) ∧ (here 7 = true → Config.presenceBit7Refused = false) := by
  intro here place
  obtain ⟨wrap, autoscroll, cursorShown, touchMode, keyEligible, lapsePolicy, clear⟩ := o
  unfold modeOperands
  simp only
  split
  · rename_i h0 h1 h2 h3 h4 h5 h6
    simp only [here, place, h0, h1, h2, h3, h4, h5, h6, Option.ite_none_right_eq_some, Option.some.injEq, ModeOperands.mk.injEq]
    simp only [Bool.and_eq_true, not_and, Bool.not_eq_true]
    constructor
    · rintro ⟨⟨hl, h7⟩, rfl, rfl, rfl, rfl, rfl, rfl, rfl⟩
      exact ⟨rfl, rfl, rfl, rfl, rfl, rfl, rfl, hl, h7⟩
    · rintro ⟨rfl, rfl, rfl, rfl, rfl, rfl, rfl, hl, h7⟩
      exact ⟨⟨hl, h7⟩, rfl, rfl, rfl, rfl, rfl, rfl, rfl⟩
  · rename_i hnone
    refine ⟨fun h => (nomatch h), fun ⟨h0, h1, h2, h3, h4, h5, h6, _⟩ => ?_⟩
    exact (hnone _ _ _ _ _ _ _ h0 h1 h2 h3 h4 h5 h6).elim

theorem boolOf_eq_iff (n : Nat) (v : Option Bool) :
    v ≠ none ∧ v = boolOf n ↔ (v = some false ∧ n = 0) ∨ (v = some true ∧ n = 1) := by
  unfold boolOf
  split <;> rcases v with _ | _ | _ <;> simp_all

theorem touchModeOf_eq (n : Nat) : touchModeOf n = [TouchMode.take, .block, .pass][n]? := by
  rcases n with _ | _ | _ | n <;> rfl

theorem lapsePolicyOf_eq (n : Nat) : lapsePolicyOf n = [LapsePolicy.keep, .hide, .mark][n]? := by
  rcases n with _ | _ | _ | n <;> rfl

theorem clearOperand_eq_iff (x : Cell) (v : Option Cell) :
    (v ≠ none ∧ v = if glyphOk x then some x else none) ↔ v = some x ∧ x.glyph ≤ 319 := by
  by_cases h : x.glyph ≤ 319 <;> cases v <;> simp [glyphOk, h]

/-! ## The effect of SET_WINDOW_MODES (R36) -/

theorem PortState.silent_iff (st : PortState) (h : st ≠ .closing) : st.silent = true ↔ st = .lapsed := by
  cases st <;> simp_all [PortState.silent]

theorem EndsAlike.setModes {p : Port} {s : State} (w : Window) (o : ModeOperands) : EndsAlike p s (s.setModes w o) := by
  have hset : EndsAlike p s (s.updateWindow w.handle (fun w => w.withModes o)) := ⟨rfl, rfl, rfl⟩
  unfold State.setModes
  simp only
  split <;> split
  · exact hset.recompute
  · exact (hset.withdrawFocus _ _ _).recompute
  · exact hset
  · exact hset.withdrawFocus _ _ _

/-- Settles O30: the operands one by one, then the effect with its two conditions. -/
theorem setWindowModesChangesPresentFields : Obligations.SetWindowModesChangesPresentFields := by
  refine ⟨fun pl o => ?_, fun s p c w hserves hw ho => ?_⟩
  · intro here place yesNo
    have hyesNo (i : Nat) (v : Option Bool) : optionalOperand (here i) (boolOf (byteAt pl (place i))) = some v ↔ yesNo i v := by
      rw [optionalOperand_eq_some_iff, boolOf_eq_iff]
    refine (modeOperands_eq_some_iff pl o).trans (and_congr (hyesNo 0 _) (and_congr (hyesNo 1 _) (and_congr (hyesNo 2 _)
      (and_congr ?_ (and_congr (hyesNo 4 _) (and_congr ?_ (and_congr ?_ Iff.rfl)))))))
    · rw [optionalOperand_eq_some_iff, touchModeOf_eq]
      rfl
    · rw [optionalOperand_eq_some_iff, lapsePolicyOf_eq]
      rfl
    · rw [optionalOperand_eq_some_iff, clearOperand_eq_iff]
      rfl
  · subst ho
    have hown (effect : Window → Effect) : ownWindowAt s w.owner c 1 c.payload.length effect = effect w := by
      simp [ownWindowAt, State.resolveOwn, hw]
    refine ⟨fun hm => exec_refused rfl hserves ?_, fun o hm => ?_⟩
    · rw [hown, hm]
    · intro f set eased
      have ⟨_, _, _, _, hclosing, _⟩ := hserves
      have hsilent := (s.port w.owner).state.silent_iff hclosing
      have hmodes : s.setModes w o = if (f w).lapsePolicy ≠ w.lapsePolicy ∧ (s.port w.owner).state = .lapsed
          then eased.recomputeExposure else eased := by
        have heased : (if (w.withModes o).keyEligible then set else set.withdrawFocus w.handle w.owner .modes) = eased := by
          show (if (f w).keyEligible = true then set else if s.focus = some w.handle then _ else set) = _
          cases hk : (f w).keyEligible <;> simp [eased, hk]
        rw [← heased]
        unfold State.setModes
        simp only [hsilent]
        rfl
      rw [← hmodes]
      exact exec_takes rfl hserves (by rw [hown, hm]) (.setModes w o)

/-! ## Composition and exposure (R22, R24, R25) -/

/-- The views of the composed-shown windows of a list, the lowest first (R24). -/
def State.shownViews (s : State) (ws : List Window) : List Rect := ((ws.filter fun w => (s.rendering w).isSome).map (·.view)).reverse

/-- The windows below a part of the stack are under the views of that part too. -/
theorem State.exposeFrom_append (s : State) (above : List Rect) (ws xs : List Window) :
    s.exposeFrom above (ws ++ xs) = s.exposeFrom above ws ++ s.exposeFrom (s.shownViews ws ++ above) xs := by
  induction ws generalizing above with
  | nil => rfl
  | cons w ws ih =>
    have hviews : s.shownViews (w :: ws) ++ above = s.shownViews ws ++ s.viewsUnder above w := by
      unfold State.shownViews State.viewsUnder
      cases h : (s.rendering w).isSome <;> simp [h]
    rw [List.cons_append, State.exposeFrom_cons, State.exposeFrom_cons, ih, hviews]
    rfl

theorem State.length_exposeFrom (s : State) (above : List Rect) (ws : List Window) : (s.exposeFrom above ws).length = ws.length := by
  simpa using congrArg List.length (s.exposeFrom_frames above ws)

/-- A window of the stack after a recomputation is exposed under the views of the composed-shown windows above it. -/
theorem State.getElem?_recomputeExposure {s : State} {above below : List Window} {w : Window} (h : s.windows = above ++ w :: below) :
    s.recomputeExposure.windows[above.length]? = some (s.exposedUnder (s.shownViews above) w) := by
  rw [s.recomputeExposure_windows, h, State.exposeFrom_append, List.append_nil, State.exposeFrom_cons,
    List.getElem?_append_right (by rw [State.length_exposeFrom]), State.length_exposeFrom, Nat.sub_self]
  rfl

/-- A composed-shown window covers the cells of its view (R23). -/
theorem State.any_shownViews (s : State) (ws : List Window) (c r : Nat) :
    (s.shownViews ws).any (fun a => contains a c r) = true ↔ ∃ x ∈ ws, Covers s x c r := by
  simp only [State.shownViews, List.any_reverse, List.any_map, List.any_filter, List.any_eq_true, Bool.and_eq_true, Function.comp_apply,
    Option.isSome_iff_ne_none, contains_iff]

/-- The count of a view's cells that no view of the list contains, cell by cell (R24). -/
theorem visibleCount_eq (above : List Rect) (v : Rect) :
    visibleCount above v = ((viewCells v).filter fun e => !above.any fun a => contains a e.1 e.2).length := by
  unfold visibleCount viewCells
  rw [List.filter_flatMap, List.length_flatMap]
  simp only [List.filter_map, List.length_map]
  rfl

/-- The view cells of `w` that no composed-shown window above it covers are as many as the recomputation counts (R24). -/
theorem State.visibleCount_shownViews (s : State) (above : List Window) (v : Rect) : visibleCount (s.shownViews above) v
    = ((viewCells v).filter fun e => decide (∀ x ∈ above, ¬ Covers s x e.1 e.2)).length := by
  rw [visibleCount_eq]
  congr 2
  funext e
  rw [Bool.eq_iff_iff, Bool.not_eq_true', ← Bool.not_eq_true, State.any_shownViews, decide_eq_true_eq]
  push Not
  rfl

/-- The rows of Table 2-4 for a silent owner (R22). -/
theorem State.rendering_silent {s : State} {w : Window}
    (h : (s.port w.owner).state = .lapsed ∨ (s.port w.owner).state = .closing) : s.rendering w =
      if w.band = .critical then some .mark
      else if w.shown then
        match w.lapsePolicy with
        | .keep => some .normal
        | .mark => some .mark
        | .hide => none
      else none := by
  unfold State.rendering
  rcases h with h | h <;> rw [h] <;> rfl

/-- Settles O28: Table 2-4 by port state, the recomputation window by window, and the three commands by their effects. -/
theorem placeShowAndHideChangeTheirFields : Obligations.PlaceShowAndHideChangeTheirFields := by
  refine ⟨fun s w => ?_, fun s => ?_, fun s p c w hnames => ?_⟩
  · intro st
    refine ⟨fun (h : (s.port w.owner).state = .live) => ?_, fun h => ?_,
      fun (h : (s.port w.owner).state = .detached ∨ (s.port w.owner).state = .disabled) => ?_⟩
    · rw [State.rendering, h]; rfl
    · rw [State.rendering_silent h]
      exact ⟨fun hb => if_pos hb, fun hb hs => (if_neg hb).trans (if_pos hs), fun hb hs => (if_neg hb).trans (if_neg (by simp [hs]))⟩
    · rw [State.rendering]
      rcases h with h | h <;> rw [h] <;> rfl
  · intro t changed
    refine ⟨?_, fun above w below h => ?_, ?_⟩
    · rw [s.recomputeExposure_windows, State.length_exposeFrom]
    · intro n
      have hn : visibleCount (s.shownViews above) w.view = n := s.visibleCount_shownViews above w.view
      have ht : t.windows[above.length]? = _ := State.getElem?_recomputeExposure h
      rw [ht]
      unfold State.exposedUnder
      rw [hn]
      cases s.rendering w <;> simp [exposureClass]
    · show s.recomputeExposure = _
      simp only [changed, t, s.recomputeExposure_windows]
      rfl
  · obtain ⟨hw, rfl⟩ := hnames
    have hnames : NamesOwn s w.owner c w := ⟨hw, rfl⟩
    refine ⟨fun hserves hl => ?_, fun hserves hl => ?_, fun hserves => ⟨fun hl => ?_, fun hl => ?_⟩,
      fun hserves => ⟨fun hl => ?_, fun hl => ?_⟩⟩
    · exact exec_refused rfl hserves (ownWindow_badLength hnames hl)
    · intro v oc orow shape hc1 hc2 hr1 hr2
      have hshape : geometryOk s.prof w.sc w.sr v oc orow = true ↔ shape := by
        rw [geometryOk_iff]
        exact ⟨fun ⟨_, _, _, _, h⟩ => h, fun h => ⟨hc1, hc2, hr1, hr2, h⟩⟩
      have heffect := ownWindow_effect (effect := s.placeWindow c) hnames hl
      exact ⟨fun h => exec_refused rfl hserves (heffect.trans (if_neg (mt hshape.1 h))),
        fun h => exec_takes rfl hserves (heffect.trans (if_pos (hshape.2 h))) (EndsAlike.recompute ⟨rfl, rfl, rfl⟩)⟩
    · exact exec_refused rfl hserves (ownWindow_badLength hnames hl)
    · exact exec_takes rfl hserves (ownWindow_effect hnames hl) (EndsAlike.recompute ⟨rfl, rfl, rfl⟩)
    · exact exec_refused rfl hserves (ownWindow_badLength hnames hl)
    · intro hidden eased
      have hu : EndsAlike w.owner s hidden := ⟨rfl, rfl, rfl⟩
      exact exec_takes rfl hserves (ownWindow_effect hnames hl) (hu.withdrawFocus w.handle w.owner .hidden).recompute

end Sys2Proof.Machine
end

section
namespace Sys2Proof.Machine

-- One theorem is checked at a time, for the memory limit.
set_option Elab.async false

/-! The drawing commands of chapter 4 other than fills, puts and text. A slice of a copy or a shift reads its cells as they stand while it
writes, and its order puts each read before the write that would spoil it; so it leaves what it would leave if it had read them all
at its beginning. -/

/-! ## Pen, cursor, cells read and glyphs (R66, R69, R70, R84, R85) -/

/-- The five fields of a cell in three bytes (Table 11-4). -/
theorem cellAt_fields (pl : List Byte) (i : Nat) :
    (cellAt pl i).glyph = byteAt pl i + 256 * (byteAt pl (i + 1) % 2) ∧ (cellAt pl i).fg.val = byteAt pl (i + 2) / 16
      ∧ (cellAt pl i).bg.val = byteAt pl (i + 2) % 16 ∧ (cellAt pl i).blink = (byteAt pl (i + 1)).testBit 1
      ∧ (cellAt pl i).inverse = (byteAt pl (i + 1)).testBit 2 := by
  refine ⟨?_, Nat.mod_eq_of_lt ?_, rfl, rfl, rfl⟩
  · have hbit : (pl.getD (i + 1) 0).getLsbD 0 = decide (byteAt pl (i + 1) % 2 = 1) := Nat.testBit_zero _
    simp only [cellAt, hbit, decide_eq_true_eq]
    split <;> omega
  · have : byteAt pl (i + 2) < 256 := BitVec.isLt _
    omega

theorem glyphOk_iff (v : Cell) : glyphOk v = true ↔ v.glyph ≤ 319 := decide_eq_true_iff

/-- Patterns loaded from an index on take their places one after another; every other pattern of the bank stays (R85). -/
theorem loadPatterns_get (bank : Vector Pattern 64) (first : Nat) (ps : List Pattern) (k : Fin 64) :
    (loadPatterns bank first ps).get k = if first ≤ k.val then (ps[k.val - first]?).getD (bank.get k) else bank.get k := by
  induction ps generalizing bank first with
  | nil => simp [loadPatterns]
  | cons x xs ih =>
    have hset : (bank.setIfInBounds first x).get k = if first = k.val then x else bank.get k := by
      simp [Vector.get_eq_getElem, Vector.getElem_setIfInBounds]
    rw [loadPatterns, ih, hset]
    rcases Nat.lt_trichotomy k.val first with hk | hk | hk
    · rw [if_neg (by omega), if_neg (by omega), if_neg (by omega)]
    · rw [if_neg (by omega), if_pos hk.symm, if_pos (by omega), hk, Nat.sub_self]
      rfl
    · rw [if_pos (by omega), if_neg (by omega), if_pos (by omega), show k.val - first = k.val - (first + 1) + 1 by omega]
      rfl

/-- A port that may read a window resolves its handle to it (R20). -/
theorem State.resolveRead_named {s : State} {p : Port} {c : QCmd} {w : Window} (h : NamesReadable s p c w) :
    s.resolveRead p (handleAt c.payload 0) = .ok w := by
  rw [State.resolveRead, h.1]
  exact if_pos h.2

theorem readOperands_eq_none {pl : List Byte} (h : pl.length ≠ 5 ∨ byteAt pl 4 = 0 ∨ 16 < byteAt pl 4) : readOperands pl = none := by
  refine if_neg ?_
  simp only [inRange, Bool.and_eq_true, decide_eq_true_eq]
  omega

theorem readOperands_meant {pl : List Byte} (hl : pl.length = 5) (h1 : 1 ≤ byteAt pl 4) (h16 : byteAt pl 4 ≤ 16) :
    readOperands pl = some (byteAt pl 2, byteAt pl 3, byteAt pl 4) :=
  if_pos ⟨hl, by simp [inRange, h1, h16]⟩

theorem glyphOperands_eq_none {pl : List Byte} (h : 63 < byteAt pl 0 ∨ byteAt pl 1 = 0 ∨ 16 < byteAt pl 1
    ∨ 64 < byteAt pl 0 + byteAt pl 1 ∨ pl.length ≠ 2 + 16 * byteAt pl 1) : glyphOperands pl = none := by
  refine if_neg ?_
  simp only [inRange, Bool.and_eq_true, decide_eq_true_eq]
  omega

theorem glyphOperands_meant {pl : List Byte} (h1 : 1 ≤ byteAt pl 1) (h16 : byteAt pl 1 ≤ 16) (hfirst : byteAt pl 0 ≤ 63)
    (hlast : byteAt pl 0 + byteAt pl 1 ≤ 64) (hl : pl.length = 2 + 16 * byteAt pl 1) :
    glyphOperands pl = some (byteAt pl 0, (List.range (byteAt pl 1)).map fun k => patternAt pl (2 + 16 * k)) :=
  if_pos ⟨by simp [inRange, h1, h16], hfirst, hlast, hl⟩

/-- Settles O32: each command's operands decide between its refusals, in order, and its effect. -/
theorem oneSliceDrawingCommands : Obligations.OneSliceDrawingCommands := by
  refine ⟨cellAt_fields, fun pl i y => ?_, fun s p c w => ⟨fun hserves hnames => ⟨fun h => ?_, fun hl hg => ?_⟩, ?_, ?_, ?_⟩⟩
  · simp [patternAt, Vector.get_eq_getElem]
  · refine exec_refused rfl hserves ?_
    by_cases hl : c.payload.length = 5
    · exact (ownWindow_effect hnames hl).trans (if_neg fun hg => (h.resolve_left (not_not.2 hl)).not_ge ((glyphOk_iff _).1 hg))
    · exact ownWindow_badLength hnames hl
  · exact exec_takes rfl hserves ((ownWindow_effect hnames hl).trans (if_pos ((glyphOk_iff _).2 hg)))
  · refine fun hserves hnames => ⟨fun hl => ?_, fun hl h => ?_, fun hl hc hr => ?_⟩
    · exact exec_refused rfl hserves (ownWindow_badLength hnames hl)
    · exact exec_refused rfl hserves ((ownWindow_effect hnames hl).trans (if_neg (by omega)))
    · exact exec_takes rfl hserves ((ownWindow_effect hnames hl).trans (if_pos ⟨hc, hr⟩))
  · refine fun hserves hnames => ⟨fun h => exec_ended rfl hserves ?_, fun hl h1 h16 h => exec_ended rfl hserves ?_,
      fun hl h1 h16 hr hc => exec_ended rfl hserves ?_⟩ <;> rw [State.resolveRead_named hnames]
    · rw [readOperands_eq_none h]
    · rw [readOperands_meant hl h1 h16]
      exact if_neg (by omega)
    · rw [readOperands_meant hl h1 h16]
      exact if_pos ⟨hr, hc⟩
  · refine fun hserves => ⟨fun h => exec_refused rfl hserves (by rw [glyphOperands_eq_none h]), fun h1 h16 hfirst hlast hl =>
      ⟨_, exec_takes rfl hserves (by rw [glyphOperands_meant h1 h16 hfirst hlast hl]) ?_, fun i => ?_⟩⟩
    · rw [EndsAlike, State.port_setPort_self]
      exact ⟨rfl, rfl, rfl⟩
    · rw [loadPatterns_get]
      by_cases hlow : byteAt c.payload 0 ≤ i.val
      · rw [if_pos hlow]
        by_cases hhigh : i.val < byteAt c.payload 0 + byteAt c.payload 1
        · rw [if_pos ⟨hlow, hhigh⟩]
          simp [show i.val - byteAt c.payload 0 < byteAt c.payload 1 by omega]
        · rw [if_neg fun h => hhigh h.2]
          simp [show ¬ i.val - byteAt c.payload 0 < byteAt c.payload 1 by omega]
      · rw [if_neg hlow, if_neg fun h => hlow h.1]

/-! ## The cells of a slice, in either order (R52, R67) -/

/-- The cells that a slice from unit `next` on writes, as places in forward order, in the order in which it writes them. -/
def sliceCells (backward : Bool) (area next : Nat) : List Nat := (sliceUnits area next).map (unitIndex backward area)

/-- The exact reverse of the exact reverse is the forward order. -/
theorem eq_unitIndex_iff {backward : Bool} {area n i : Nat} (hn : n < area) :
    unitIndex backward area n = i ↔ i < area ∧ n = unitIndex backward area i := by
  cases backward <;> simp only [unitIndex, Bool.false_eq_true, if_true, if_false] <;> omega

theorem mem_sliceCells {backward : Bool} {area next i : Nat} :
    i ∈ sliceCells backward area next ↔ i < area ∧ next ≤ unitIndex backward area i ∧ unitIndex backward area i < next + 64 := by
  simp only [sliceCells, List.mem_map, mem_sliceUnits]
  constructor
  · rintro ⟨n, ⟨hnext, hn, hlast⟩, hi⟩
    obtain ⟨hlt, rfl⟩ := (eq_unitIndex_iff hn).1 hi
    exact ⟨hlt, hnext, hlast⟩
  · rintro ⟨hi, hnext, hlast⟩
    have hunit : unitIndex backward area i < area := ((eq_unitIndex_iff hi).1 rfl).1
    exact ⟨_, ⟨hnext, hunit, hlast⟩, (eq_unitIndex_iff hunit).2 ⟨hi, rfl⟩⟩

/-- A cell belongs to the slice exactly when the unit that writes it does. -/
theorem mem_sliceCells_iff_unit {backward : Bool} {area next i unit : Nat} (hi : i < area)
    (hunit : unit + 1 = if backward then area - i else i + 1) :
    i ∈ sliceCells backward area next ↔ next ≤ unit ∧ unit < next + 64 := by
  have hindex : unitIndex backward area i = unit := by
    cases backward <;> simp only [unitIndex, Bool.false_eq_true, if_true, if_false] at hunit ⊢ <;> omega
  rw [mem_sliceCells, hindex]
  exact and_iff_right hi

/-- Of two cells of a slice the earlier stands first in forward order, and last in backward order. -/
theorem sliceCells_pairwise (backward : Bool) (area next : Nat) :
    (sliceCells backward area next).Pairwise (fun i j => if backward then j < i else i < j) := by
  refine List.pairwise_map.2 ((List.pairwise_lt_range' (s := next)).imp_of_mem fun {m n} hm hn hlt => ?_)
  have := ((mem_sliceUnits _ _ _).1 hn).2.1
  cases backward <;> simp only [unitIndex, Bool.false_eq_true, if_true, if_false] <;> omega

/-- Cells counted row by row lie in lower rows, or further left in one row. -/
theorem rowOf_lt_or_colOf_lt (r : Rect) {i j : Nat} (h : i < j) :
    rowOf r i < rowOf r j ∨ rowOf r i = rowOf r j ∧ colOf r i < colOf r j := by
  have hdiv : i / r.w ≤ j / r.w := Nat.div_le_div_right h.le
  have hi := Nat.div_add_mod i r.w
  have hj := Nat.div_add_mod j r.w
  unfold rowOf colOf
  rcases hdiv.lt_or_eq with hlt | heq
  · omega
  · rw [heq] at hi
    omega

/-- The same place in two rectangles of one width lies at the same offset from their corners (R78). -/
theorem colOf_rowOf_offset {a b : Rect} (n : Nat) (hw : a.w = b.w) :
    (colOf a n : Int) = colOf b n - (b.col - a.col) ∧ (rowOf a n : Int) = rowOf b n - (b.row - a.row) := by
  simp only [colOf, rowOf, hw]
  omega

/-- Content moves by `dr` rows and `dc` columns, in backward order exactly when that is later in row-major order. Then a cell written
earlier is never the cell that moves onto a later one (R79, R83). -/
theorem written_ne_moved (r : Rect) {backward : Bool} {dr dc : Int} {i j : Nat}
    (hback : backward = true ↔ 0 < dr ∨ dr = 0 ∧ 0 < dc) (hij : if backward then j < i else i < j) :
    ¬ ((colOf r i : Int) = colOf r j - dc ∧ (rowOf r i : Int) = rowOf r j - dr) := by
  cases backward with
  | true =>
    have := rowOf_lt_or_colOf_lt r (i := j) (j := i) hij
    have := hback.1 rfl
    omega
  | false =>
    have := rowOf_lt_or_colOf_lt r (i := i) (j := j) hij
    have := mt hback.2 Bool.false_ne_true
    omega

/-! ## Writing while reading -/

/-- Writes whose values are read as they go write the values that stood at the beginning, when no write changes a later value. -/
theorem Memory.foldl_setCell_eq_writeUnits {map : List Nat} {sc : Nat} {col row : Nat → Nat} {value : Memory → Nat → Cell}
    {cells : List Nat} {m : Memory} (hwf : Memory.wf m = true)
    (hkept : cells.Pairwise fun i j => ∀ m v, Memory.wf m = true →
      value (Memory.setCell m map sc (col i) (row i) v) j = value m j) :
    cells.foldl (fun m n => Memory.setCell m map sc (col n) (row n) (value m n)) m
      = m.writeUnits map sc col row (value m) cells := by
  unfold Memory.writeUnits
  induction cells generalizing m with
  | nil => rfl
  | cons i rest ih =>
    obtain ⟨hi, hrest⟩ := List.pairwise_cons.1 hkept
    rw [List.foldl_cons, List.foldl_cons, ih (Memory.wf_setCell _ _ _ _ _ _ hwf) hrest]
    exact List.foldl_ext _ _ _ fun _ j hj => by rw [hi j hj m _ hwf]

/-- A write to a cell of a window leaves every cell of another window, and every other cell of that window, as it was (R7, R9). -/
theorem State.TableAgrees.cell_setCell {s : State} (h : s.TableAgrees) {w x : Window} (hw : w ∈ s.windows) (hx : x ∈ s.windows)
    {m : Memory} (hm : Memory.wf m = true) {c r c' r' : Nat} (hc : c < w.sc) (hr : r < w.sr) (hc' : c' < x.sc) (hr' : r' < x.sr)
    (hne : x.handle = w.handle → ¬ (c = c' ∧ r = r')) (v : Cell) :
    Memory.cell (Memory.setCell m w.stripMap w.sc c r v) x.stripMap x.sc c' r' = Memory.cell m x.stripMap x.sc c' r' := by
  refine Memory.cell_setCell_ne _ _ _ _ _ _ _ _ _ _ hm (Classical.or_iff_not_imp_left.2 fun hs hp => ?_)
  have hs := not_not.1 hs
  by_cases hh : x.handle = w.handle
  · obtain rfl : x = w := State.SlotsDistinct.eq_of_handle h.distinct hw hx hh
    obtain ⟨rfl, rfl⟩ := stripAt_injective (h.mapped x hx) (h.stripMap_nodup hx) hc' hr' hc hr hs hp
    exact hne hh ⟨rfl, rfl⟩
  · exact h.stripMap_disjoint hw hx hh (stripAt_mem (h.mapped x hx) hc' hr').2 (hs ▸ (stripAt_mem (h.mapped w hw) hc hr).2)

/-- The cells of a rectangle lie in a surface that it fits into (R67). -/
theorem colOf_rowOf_lt {sc sr : Nat} {r : Rect} {i : Nat} (hfits : rectOk sc sr r = true) (hi : i < r.w * r.h) :
    colOf r i < sc ∧ rowOf r i < sr := by
  obtain ⟨hw, -, -, -, hcols, hrows⟩ := (rectOk_iff _ _ _).1 hfits
  have := colOf_rowOf_inside hw hi
  omega

/-- What writing some cells of a rectangle leaves in the memory: those cells have their values, and every other cell of every window
and every strip of no window is as it was (R11, R67). -/
theorem State.writeUnits_cells {s : State} {w : Window} {r : Rect} (value : Nat → Cell) {cells : List Nat} (hw : w ∈ s.windows)
    (hcanonical : s.StripsCanonical) (htable : s.TableAgrees) (hfits : rectOk w.sc w.sr r = true)
    (hcells : ∀ i ∈ cells, i < r.w * r.h) (u : State)
    (hu : u = { s with memory := s.memory.writeUnits w.stripMap w.sc (colOf r) (rowOf r) value cells }) :
    (∀ col row, col < w.sc → row < w.sr → u.cellOf w col row =
        if contains r col row = true ∧ (row - r.row) * r.w + (col - r.col) ∈ cells
        then value ((row - r.row) * r.w + (col - r.col)) else s.cellOf w col row)
      ∧ (∀ x ∈ s.windows, x.handle ≠ w.handle → ∀ col row, col < x.sc → row < x.sr → u.cellOf x col row = s.cellOf x col row)
      ∧ (∀ k, k ∉ w.stripMap → Memory.read u.memory k = Memory.read s.memory k) := by
  subst hu
  obtain ⟨hw1, -⟩ := (rectOk_iff _ _ _).1 hfits
  have hmapped := htable.mapped w hw
  have hin : ∀ i ∈ cells, colOf r i < w.sc ∧ rowOf r i < w.sr := fun i hi => colOf_rowOf_lt hfits (hcells i hi)
  have hread (k : Nat) (hk : k ∉ w.stripMap) :
      Memory.read (s.memory.writeUnits w.stripMap w.sc (colOf r) (rowOf r) value cells) k = Memory.read s.memory k :=
    Memory.read_writeUnits_not_mem hmapped hin hk
  have hcell {col row j : Nat} (hc : col < w.sc) (hr : row < w.sr) (hj : ∀ n ∈ cells, colOf r n = col ∧ rowOf r n = row ↔ n = j) :=
    Memory.cell_writeUnits (value := value) hcanonical hmapped (htable.stripMap_nodup hw) hin hc hr hj
  refine ⟨fun col row hc hr => ?_, fun x hx hne col row hc hr => ?_, hread⟩
  · by_cases hcon : contains r col row = true
    · refine (hcell hc hr fun n hn => ?_).trans (if_congr (and_iff_right hcon).symm rfl rfl)
      exact (colOf_rowOf_eq_iff hw1 (hcells n hn)).trans (and_iff_right hcon)
    · rw [if_neg fun h => hcon h.1]
      refine (hcell (j := r.w * r.h) hc hr fun n hn => ?_).trans (if_neg fun h => (hcells _ h).false)
      exact iff_of_false (fun h => hcon ((colOf_rowOf_eq_iff hw1 (hcells n hn)).1 h).1) (hcells n hn).ne
  · have hmem := (stripAt_mem (htable.mapped x hx) hc hr).2
    exact congrArg (fun t : Strip => t.get (stripPos col)) (hread _ fun h => htable.stripMap_disjoint hw hx hne hmem h)

/-- One slice of a command that moves cells onto a rectangle of a window (R52, R55, R80, R83): where no write spoils a later read, the
slice's cells take the values that stood when it began, all else in the memory is as it was, and the command ends or goes on. -/
theorem exec_movesRect {s : State} {p : Port} {i : Instr} {k : CommandKind} {c : QCmd} {work : QCmd → State → SliceEnd} {w : Window}
    {r : Rect} {backward : Bool} {value : Memory → Nat → Cell} (hi : exec i s = .next (s.runSlice p k work)) (hserves : Serves s p k c)
    (hw : w ∈ s.windows) (hcanonical : s.StripsCanonical) (htable : s.TableAgrees) (hfits : rectOk w.sc w.sr r = true)
    (hn : (s.port p).progress.next ≤ r.w * r.h)
    (hwork : work c s = s.rectSlice (s.port p).progress backward (r.w * r.h)
      (fun m n => Memory.setCell m w.stripMap w.sc (colOf r n) (rowOf r n) (value m n)))
    (hkept : ∀ i j, i < r.w * r.h → j < r.w * r.h → (if backward then j < i else i < j) → ∀ m v, Memory.wf m = true →
      value (Memory.setCell m w.stripMap w.sc (colOf r i) (rowOf r i) v) j = value m j) :
    ∃ u : State, u = { s with memory := u.memory }
      ∧ (∀ col row, col < w.sc → row < w.sr → u.cellOf w col row =
          if contains r col row = true ∧ (row - r.row) * r.w + (col - r.col) ∈ sliceCells backward (r.w * r.h) (s.port p).progress.next
          then value s.memory ((row - r.row) * r.w + (col - r.col)) else s.cellOf w col row)
      ∧ (∀ x ∈ s.windows, x.handle ≠ w.handle → ∀ col row, col < x.sc → row < x.sr → u.cellOf x col row = s.cellOf x col row)
      ∧ (∀ k, k ∉ w.stripMap → Memory.read u.memory k = Memory.read s.memory k)
      ∧ (r.w * r.h ≤ (s.port p).progress.next + 64 → exec i s = .next (u.concludes p c .ok .none (r.w * r.h)))
      ∧ ((s.port p).progress.next + 64 < r.w * r.h → exec i s = .next (State.arbitrate (State.setPort { u with slice := none } p
          { s.port p with progress := { (s.port p).progress with
              started := true, next := (s.port p).progress.next + 64, cellsDone := (s.port p).progress.next + 64
              backward := backward } }))) := by
  have hcells : ∀ n ∈ sliceCells backward (r.w * r.h) (s.port p).progress.next, n < r.w * r.h := fun n h => (mem_sliceCells.1 h).1
  have hmemory : (sliceUnits (r.w * r.h) (s.port p).progress.next).foldl (fun m n =>
        Memory.setCell m w.stripMap w.sc (colOf r (unitIndex backward (r.w * r.h) n)) (rowOf r (unitIndex backward (r.w * r.h) n))
          (value m (unitIndex backward (r.w * r.h) n))) s.memory
      = s.memory.writeUnits w.stripMap w.sc (colOf r) (rowOf r) (value s.memory)
          (sliceCells backward (r.w * r.h) (s.port p).progress.next) := by
    rw [← Memory.foldl_setCell_eq_writeUnits hcanonical, sliceCells, List.foldl_map]
    exact (sliceCells_pairwise _ _ _).imp_of_mem fun {i j} hi hj hij => hkept i j (hcells i hi) (hcells j hj) hij
  obtain ⟨hvalues, hothers, hstrips⟩ := State.writeUnits_cells (value s.memory) hw hcanonical htable hfits hcells _ rfl
  obtain ⟨hlast, hmore⟩ := s.rectSlice_cases (s.port p).progress backward (r.w * r.h) _ hn
  rw [← hwork, hmemory] at hlast hmore
  exact ⟨_, rfl, hvalues, hothers, hstrips,
    fun h => hi.trans (congrArg Host.Outcome.next (State.runSlice_plain hserves (hlast h) rfl rfl rfl)),
    fun h => hi.trans (congrArg Host.Outcome.next (State.runSlice_plain hserves (hmore h) rfl rfl rfl))⟩

/-- The cell of a rectangle at a place, and the place of that cell (R67). -/
theorem colOf_rowOf_place {sc sr : Nat} {r : Rect} {c row : Nat} (hfits : rectOk sc sr r = true) (h : contains r c row = true) :
    colOf r ((row - r.row) * r.w + (c - r.col)) = c ∧ rowOf r ((row - r.row) * r.w + (c - r.col)) = row :=
  (colOf_rowOf_eq_iff ((rectOk_iff _ _ _).1 hfits).1 (place_lt_area h)).2 ⟨h, rfl⟩

/-! ## COPY_RECT (R78 to R80) -/

theorem copyBackward_iff (same : Bool) (a b : Rect) :
    copyBackward same a b = true ↔ same = true ∧ (a.row < b.row ∨ (a.row = b.row ∧ a.col < b.col)) := by
  simp only [copyBackward, Bool.and_eq_true, Bool.or_eq_true, decide_eq_true_eq]

/-- The order of a slice of a copy: as the first slice chose it (R79). -/
def copyOrder (pr : Progress) (same : Bool) (a b : Rect) : Bool := if pr.started then pr.backward else copyBackward same a b

/-- Later slices keep the order that fits the two rectangles when the first one chose it (R79). -/
theorem copyOrder_iff {pr : Progress} {same : Bool} {a b : Rect}
    (h : pr.started = true → (pr.backward = true ↔ same = true ∧ (a.row < b.row ∨ (a.row = b.row ∧ a.col < b.col)))) :
    copyOrder pr same a b = true ↔ same = true ∧ (a.row < b.row ∨ (a.row = b.row ∧ a.col < b.col)) := by
  unfold copyOrder
  split
  · exact h ‹_›
  · exact copyBackward_iff same a b

/-- In the order of R79 no source cell is written before it is read. -/
theorem copied_setCell {s : State} {w src : Window} {a b : Rect} {back : Bool} {i j : Nat} (htable : s.TableAgrees) (hw : w ∈ s.windows)
    (hsrc : src ∈ s.windows) (ha : rectOk src.sc src.sr a = true) (hb : rectOk w.sc w.sr b = true) (hwidth : a.w = b.w)
    (hback : back = true ↔ src.handle = w.handle ∧ (a.row < b.row ∨ (a.row = b.row ∧ a.col < b.col)))
    (hi : i < b.w * b.h) (hj : j < a.w * a.h) (hij : if back then j < i else i < j) {m : Memory} (hm : Memory.wf m = true) (v : Cell) :
    Memory.cell (Memory.setCell m w.stripMap w.sc (colOf b i) (rowOf b i) v) src.stripMap src.sc (colOf a j) (rowOf a j)
      = Memory.cell m src.stripMap src.sc (colOf a j) (rowOf a j) := by
  obtain ⟨hic, hir⟩ := colOf_rowOf_lt hb hi
  obtain ⟨hjc, hjr⟩ := colOf_rowOf_lt ha hj
  refine htable.cell_setCell hw hsrc hm hic hir hjc hjr (fun hsame hat => ?_) v
  obtain ⟨hcol, hrow⟩ := colOf_rowOf_offset j hwidth
  refine written_ne_moved b (hback.trans ?_) hij ⟨hat.1 ▸ hcol, hat.2 ▸ hrow⟩
  rw [and_iff_right hsame]
  omega

/-- A slice of a copy whose handles resolve and whose rectangles lie inside passes its checks, at every slice (R54, R78). -/
theorem copyWork_named {s : State} {p : Port} {c : QCmd} {w src : Window} (hw : s.windowOf (handleAt c.payload 6) = some w)
    (ho : w.owner = p) (hsrc : s.windowOf (handleAt c.payload 0) = some src) (hg : src.owner = p ∨ p ∈ src.grants)
    (hl : c.payload.length = 10) (ha : rectOk src.sc src.sr (rectAt c.payload 2) = true)
    (hb : rectOk w.sc w.sr (copyTarget c.payload) = true) :
    copyWork p c s = s.copySlice (s.port p).progress w src c.payload
      (copyOrder (s.port p).progress (src.handle == w.handle) (rectAt c.payload 2) (copyTarget c.payload)) := by
  have hlater : s.copyLaterChecks p c = .ok src := by
    simp only [State.copyLaterChecks, hsrc, ha, if_true]
    exact if_neg (by tauto)
  have hfirst : s.copyFirstChecks p c w = .ok src := by
    simp [State.copyFirstChecks, State.resolveRead, hsrc, hg, hl, ha, hb]
  simp [copyWork, copyOrder, State.resolveOwn, hw, ho, hlater, hfirst]

/-- Settles O34: in the order of R79 no cell is written before it is read, so each unit copies the source as it stood. -/
theorem copyRectCopiesTheSourceAsItStood : Obligations.CopyRectCopiesTheSourceAsItStood := by
  intro s p c w src hserves hw ho hsrc hg hl a b pr later hw1 hw2 hh1 hh2 hac har hbc hbr hcanonical htable hn hdirection
  have hsrcMem : src ∈ s.windows := State.mem_of_windowOf hsrc
  have hwMem : w ∈ s.windows := State.mem_of_windowOf hw
  have ha : rectOk src.sc src.sr a = true := (rectOk_iff _ _ _).2 ⟨hw1, hw2, hh1, hh2, hac, har⟩
  have hb : rectOk w.sc w.sr b = true := (rectOk_iff _ _ _).2 ⟨hw1, hw2, hh1, hh2, hbc, hbr⟩
  have hback : copyOrder pr (src.handle == w.handle) a b = true ↔ later := by
    rw [copyOrder_iff] <;> rw [beq_iff_eq]
    exact hdirection
  obtain ⟨u, hu, hcells, hothers, hstrips, hlast, hmore⟩ := exec_movesRect
    (value := fun m n => Memory.cell m src.stripMap src.sc (colOf a n) (rowOf a n)) (exec_copyRect p s) hserves hwMem hcanonical htable
    hb hn (copyWork_named hw ho hsrc hg hl ha hb)
    fun i j hi hj hij m v hm => copied_setCell htable hwMem hsrcMem ha hb rfl hback hi hj hij hm v
  refine ⟨u, hu, fun col row hc hr => ?_, fun col row hc hr hout => ?_, hothers, hstrips, hlast, fun h => ⟨_, hmore h, hback⟩⟩
  · intro j unit hunit
    have hunit : unit + 1 = if copyOrder pr (src.handle == w.handle) a b then a.w * a.h - j else j + 1 := by
      rw [hunit, copyOrder]
      cases pr.started <;> rfl
    rw [hcells col row hc hr]
    refine if_ctx_congr (and_congr_right fun hin => mem_sliceCells_iff_unit (place_lt_area hin) hunit) (fun hin => ?_) fun _ => rfl
    obtain ⟨hcol, hrow⟩ := colOf_rowOf_place hb hin.1
    obtain ⟨hc1, -, hr1, -⟩ := (contains_iff _ _ _).1 hin.1
    have hoffset := colOf_rowOf_offset (a := a) (b := b) ((row - b.row) * b.w + (col - b.col)) rfl
    rw [hcol, hrow] at hoffset
    exact congrArg₂ (Memory.cell s.memory src.stripMap src.sc) (by omega) (by omega)
  · rw [hcells col row hc hr, if_neg fun h => Bool.false_ne_true (hout.symm.trans h.1)]

/-! ## SHIFT_RECT (R82, R83) -/

theorem shiftOperands_eq_some_iff (pl : List Byte) (r : Rect) (dr dc : Int) : shiftOperands pl = some (r, dr, dc) ↔
    pl.length = 8 ∧ r = ⟨byteAt pl 2, byteAt pl 3, byteAt pl 4, byteAt pl 5⟩ ∧ dr = (pl.getD 6 0).toInt ∧ dc = (pl.getD 7 0).toInt
      ∧ -63 ≤ dr ∧ dr ≤ 63 ∧ -63 ≤ dc ∧ dc ≤ 63 ∧ (dr ≠ 0 ∨ dc ≠ 0) := by
  refine Option.ite_none_right_eq_some.trans ?_
  simp only [Option.some.injEq, Prod.mk.injEq, rectAt, signedAt]
  constructor
  · rintro ⟨⟨hl, hr, hc, hne⟩, rfl, rfl, rfl⟩
    exact ⟨hl, rfl, rfl, rfl, by omega⟩
  · rintro ⟨hl, rfl, rfl, rfl, hrange⟩
    exact ⟨⟨hl, by omega⟩, rfl, rfl, rfl⟩

theorem shiftBackward_iff (dr dc : Int) : shiftBackward dr dc = true ↔ 0 < dr ∨ (dr = 0 ∧ 0 < dc) := by
  simp only [shiftBackward, Bool.or_eq_true, Bool.and_eq_true, decide_eq_true_eq]

/-- A cell onto which a cell of the rectangle is shifted takes that cell's value (R83). -/
theorem shiftValue_inside {rect : Rect} {dr dc : Int} {c r c' r' : Nat} (hc : (c' : Int) = c - dc) (hr : (r' : Int) = r - dr)
    (h : contains rect c' r' = true) (m : Memory) (w : Window) :
    shiftValue m w rect dr dc c r = Memory.cell m w.stripMap w.sc c' r' := by
  simp only [shiftValue, ← hc, ← hr, Int.toNat_natCast]
  exact if_pos ⟨Int.natCast_nonneg _, Int.natCast_nonneg _, h⟩

/-- A cell onto which no cell of the rectangle is shifted takes the clear cell (R83). -/
theorem shiftValue_outside {rect : Rect} {dr dc : Int} {c r : Nat}
    (h : ¬ ∃ c' r' : Nat, (c' : Int) = c - dc ∧ (r' : Int) = r - dr ∧ contains rect c' r' = true) (m : Memory) (w : Window) :
    shiftValue m w rect dr dc c r = w.clear :=
  if_neg fun ⟨hc, hr, hin⟩ => h ⟨_, _, Int.toNat_of_nonneg hc, Int.toNat_of_nonneg hr, hin⟩

/-- In the order of R83 no cell is written before it has been moved. -/
theorem shiftValue_setCell {s : State} {w : Window} {r : Rect} {dr dc : Int} {i j : Nat} (hw : w ∈ s.windows) (htable : s.TableAgrees)
    (hfits : rectOk w.sc w.sr r = true) (hi : i < r.w * r.h) (hij : if shiftBackward dr dc then j < i else i < j) {m : Memory}
    (hm : Memory.wf m = true) (v : Cell) :
    shiftValue (Memory.setCell m w.stripMap w.sc (colOf r i) (rowOf r i) v) w r dr dc (colOf r j) (rowOf r j)
      = shiftValue m w r dr dc (colOf r j) (rowOf r j) := by
  by_cases hin : ∃ c' r' : Nat, (c' : Int) = colOf r j - dc ∧ (r' : Int) = rowOf r j - dr ∧ contains r c' r' = true
  · obtain ⟨c', r', hc, hr, hin⟩ := hin
    obtain ⟨hic, hir⟩ := colOf_rowOf_lt hfits hi
    obtain ⟨-, -, -, -, hcols, hrows⟩ := (rectOk_iff _ _ _).1 hfits
    obtain ⟨-, hc', -, hr'⟩ := (contains_iff _ _ _).1 hin
    rw [shiftValue_inside hc hr hin, shiftValue_inside hc hr hin]
    refine htable.cell_setCell hw hw hm hic hir (by omega) (by omega) (fun _ ⟨hcol, hrow⟩ => ?_) v
    exact written_ne_moved r (shiftBackward_iff dr dc) hij ⟨hcol ▸ hc, hrow ▸ hr⟩
  · rw [shiftValue_outside hin, shiftValue_outside hin]

/-- Settles O36: in the order of R83 no cell is written before it has been moved, so each cell takes the value that stood. -/
theorem shiftRectMovesItsCells : Obligations.ShiftRectMovesItsCells := by
  refine ⟨shiftOperands_eq_some_iff, fun s p c w hserves hnames => ⟨fun ho => exec_ended rfl hserves ?_, fun r dr dc ho => ?_⟩⟩
  · rw [ownDrawing_named hnames, ho]
  intro fits back
  have hfitsIff : rectOk w.sc w.sr r = true ↔ fits := rectOk_iff _ _ _
  have hback : shiftBackward dr dc = true ↔ back := shiftBackward_iff dr dc
  refine ⟨fun hr => exec_ended rfl hserves ?_, fun hr hcanonical htable hn => ?_⟩
  · rw [ownDrawing_named hnames, ho]
    exact if_neg (mt hfitsIff.1 hr)
  have hfits := hfitsIff.2 hr
  have hw : w ∈ s.windows := State.mem_of_windowOf hnames.1
  obtain ⟨u, hu, hcells, hothers, hstrips, hlast, hmore⟩ := exec_movesRect (backward := shiftBackward dr dc)
    (value := fun m n => shiftValue m w r dr dc (colOf r n) (rowOf r n)) (i := .shiftRect p) rfl hserves hw hcanonical htable hfits hn
    (by rw [ownDrawing_named hnames, ho]; exact if_pos hfits)
    fun i j hi _ hij m v hm => shiftValue_setCell hw htable hfits hi hij hm v
  refine ⟨u, hu, fun col row hc hr => ?_, fun col row hc hr hout => ?_, hothers, hstrips, hlast, fun h => ⟨_, hback, hmore h⟩⟩
  · intro j unit hunit
    have hmem (hin : contains r col row = true) : j ∈ sliceCells (shiftBackward dr dc) (r.w * r.h) (s.port p).progress.next
        ↔ (s.port p).progress.next ≤ unit ∧ unit < (s.port p).progress.next + 64 := by
      refine mem_sliceCells_iff_unit (place_lt_area hin) ?_
      split
      · have := hunit.1 (hback.1 ‹_›)
        omega
      · rw [hunit.2 (mt hback.2 ‹_›)]
    refine ⟨fun hin hnext hlast => ?_, fun hout => ?_⟩
    · obtain ⟨hcol, hrow⟩ := colOf_rowOf_place hfits hin
      have hvalue : u.cellOf w col row = shiftValue s.memory w r dr dc col row := by
        rw [hcells col row hc hr, if_pos ⟨hin, (hmem hin).2 ⟨hnext, hlast⟩⟩, hcol, hrow]
      rw [hvalue]
      exact ⟨fun c' r' hc' hr' h => shiftValue_inside hc' hr' h _ _, fun h => shiftValue_outside h _ _⟩
    · rw [hcells col row hc hr, if_neg]
      rintro ⟨hin, hj⟩
      have := (hmem hin).1 hj
      rcases hout with hout | hout
      · exact Bool.false_ne_true (hout.symm.trans hin)
      · omega
  · rw [hcells col row hc hr, if_neg fun h => Bool.false_ne_true (hout.symm.trans h.1)]

end Sys2Proof.Machine
end

section
namespace Sys2Proof.Machine

-- One theorem is checked at a time, for the memory limit.
set_option Elab.async false

/-! What a slice of SET_BRIGHTNESS or FRAME_MARK asks for, and the pixels that the compositor draws from the fetched cells. -/

/-! ## Brightness and frame marks (R58, R98) -/

theorem brightnessOperand_level {pl : List Byte} (hl : pl.length = 1) (h : byteAt pl 0 ≤ 100) :
    brightnessOperand pl = some (some (byteAt pl 0)) :=
  (if_neg (not_not.2 hl)).trans (if_pos h)

theorem brightnessOperand_clear {pl : List Byte} (hl : pl.length = 1) (h : byteAt pl 0 = 255) : brightnessOperand pl = some none :=
  (if_neg (not_not.2 hl)).trans ((if_neg (by omega)).trans (if_pos h))

theorem brightnessOperand_refused {pl : List Byte} (h : pl.length ≠ 1 ∨ (100 < byteAt pl 0 ∧ byteAt pl 0 < 255)) :
    brightnessOperand pl = none := by
  by_cases hl : pl.length = 1
  · obtain ⟨hlow, hhigh⟩ := h.resolve_left (not_not.2 hl)
    exact (if_neg (not_not.2 hl)).trans ((if_neg (by omega)).trans (if_neg (by omega)))
  · exact if_pos hl

/-- An accepted SET_BRIGHTNESS sets the port's request and touches nothing else (R98). -/
theorem exec_setBrightness_takes {s : State} {p : Port} {c : QCmd} {b : Option Nat} (h : Serves s p .setBrightness c)
    (hb : brightnessOperand c.payload = some b) :
    exec (.setBrightness p) s = .next ((s.setPort p { s.port p with brightness := b }).concludes p c .ok .none 0) :=
  exec_takes rfl h (by rw [hb]) (by rw [EndsAlike, State.port_setPort_self]; exact ⟨rfl, rfl, rfl⟩)

/-- Settles O40: the operand decides between a level, a clear request and BAD_ARG; a FRAME_MARK without payload parks. -/
theorem brightnessAndFrameMarksAreAskedFor : Obligations.BrightnessAndFrameMarksAreAskedFor := by
  refine fun s p c => ⟨fun hserves => ⟨fun hl h => ?_, fun hl h => ?_, fun h => ?_⟩, fun hserves => ⟨fun hl => ?_, fun hl => ?_⟩⟩
  · exact exec_setBrightness_takes hserves (brightnessOperand_level hl h)
  · exact exec_setBrightness_takes hserves (brightnessOperand_clear hl h)
  · exact exec_refused rfl hserves (by rw [brightnessOperand_refused h])
  · exact exec_ended rfl hserves (if_neg hl)
  · exact congrArg Host.Outcome.next (State.runSlice_plain (e := .parked s) hserves (if_pos hl) rfl rfl rfl)

/-! ## The colour of a pixel (R93, Table 5-1) -/

theorem State.onFrame_iff (s : State) : s.onFrame = true ↔ 1 ≤ s.blinkCount ∧ s.blinkCount ≤ 30 := by
  simp only [State.onFrame, Bool.and_eq_true, decide_eq_true_eq]

/-- In an off frame a blinking cell is all paper. -/
theorem pixelColour_off (palette : Vector Colour 16) {f : FetchedCell} (x y : Nat) (h : f.cell.blink = true) :
    pixelColour palette false f x y = palette.get (if f.cell.inverse then f.cell.fg else f.cell.bg) := by
  simp [pixelColour, h]

/-- A steady cell, and any cell in an on frame, shows its pattern in ink on paper. -/
theorem pixelColour_shown (palette : Vector Colour 16) {onFrame : Bool} {f : FetchedCell} (x y : Nat)
    (h : f.cell.blink = false ∨ onFrame = true) :
    pixelColour palette onFrame f x y = if pixelSet (f.pattern.toList.getD y 0) x = true
      then palette.get (if f.cell.inverse then f.cell.bg else f.cell.fg)
      else palette.get (if f.cell.inverse then f.cell.fg else f.cell.bg) := by
  have hshown : (f.cell.blink && !onFrame) = false := by rcases h with h | h <;> simp [h]
  rw [pixelColour, hshown]
  rfl

/-! ## The text cursor (R95) -/

/-- The conditions of R95 for the cursor of the latched focus `g`, whose window is `w` in the latched list, to be drawn in the screen
cell at a column and row. -/
def State.CursorAt (s : State) (l : Latched) (col row : Nat) (g : LatchedFocus) (w : LatchedWindow) : Prop :=
  l.focus = some g ∧ l.windows.find? (fun v => v.handle == g.handle) = some w ∧ w.rendering = .normal
    ∧ g.cursorShown = true ∧ w.offCol ≤ g.curCol ∧ g.curCol < w.offCol + w.view.w ∧ w.offRow ≤ g.curRow
    ∧ g.curRow < w.offRow + w.view.h ∧ col = w.view.col + (g.curCol - w.offCol)
    ∧ row = w.view.row + (g.curRow - w.offRow)
    ∧ (l.windows.find? (fun v => contains v.view col row)).map (fun v => v.handle) = some g.handle
    ∧ 1 ≤ s.blinkCount ∧ s.blinkCount ≤ 30

/-- The compositor finds a cursor on a screen row exactly where R95 has one drawn. -/
theorem State.cursorOn_eq_some_iff (s : State) (l : Latched) (col row : Nat) (fg : Fin 16) :
    s.cursorOn l row = some (col, fg) ↔ ∃ g w, s.CursorAt l col row g w ∧ g.fg = fg := by
  unfold State.cursorOn
  constructor
  · intro h
    split at h
    · cases h
    · rename_i g hfocus
      split at h
      · cases h
      · rename_i w hwindow
        dsimp only at h
        split at h
        · rename_i hdrawn
          obtain ⟨hnormal, hshown, hc, hcw, hr, hrh, rfl, htop, hon⟩ := hdrawn
          cases h
          exact ⟨g, w, ⟨hfocus, hwindow, hnormal, hshown, hc, by omega, hr, by omega, rfl, rfl, htop, s.onFrame_iff.1 hon⟩, rfl⟩
        · cases h
  · rintro ⟨g, w, ⟨hfocus, hwindow, hnormal, hshown, hc, hcw, hr, hrh, rfl, rfl, htop, hon⟩, rfl⟩
    rw [hfocus]
    dsimp only
    rw [hwindow]
    exact if_pos ⟨hnormal, hshown, hc, by omega, hr, by omega, rfl, htop, s.onFrame_iff.2 hon⟩

/-! ## The pixels of a row (R92) -/

/-- Entry `x` of block `i`, where every block has the same length. -/
theorem getElem?_flatten_map {α β : Type} {f : α → List β} {n x : Nat} {a : α} (hf : ∀ a, (f a).length = n) (hx : x < n) :
    ∀ {xs : List α} {i : Nat}, xs[i]? = some a → (xs.map f).flatten[n * i + x]? = (f a)[x]?
  | b :: xs, 0, h => by
    cases h
    rw [List.map_cons, List.flatten_cons, Nat.mul_zero, Nat.zero_add, List.getElem?_append_left (by rw [hf]; exact hx)]
  | b :: xs, i + 1, h => by
    have hi : n * (i + 1) + x = (f b).length + (n * i + x) := by rw [hf, Nat.mul_succ]; omega
    rw [List.map_cons, List.flatten_cons, hi, List.getElem?_append_right (Nat.le_add_right _ _), Nat.add_sub_cancel_left]
    exact getElem?_flatten_map hf hx h

/-- A pixel of the cursor's two rows is drawn in the cursor's colour. -/
theorem drawPixelRow_cursor (palette : Vector Colour 16) (onFrame : Bool) (fg : Fin 16) {cells : List FetchedCell} {f : FetchedCell}
    {col x y : Nat} (hf : cells[col]? = some f) (hx : x < 8) (hy : 14 ≤ y) :
    (drawPixelRow palette onFrame (some (col, fg)) cells y)[8 * col + x]? = some (palette.get fg) := by
  rw [drawPixelRow, getElem?_flatten_map (a := (f, col)) (fun _ => by simp) hx (by simp [hf])]
  rw [List.getElem?_map, List.getElem?_range hx]
  exact congrArg some (if_pos ⟨rfl, hy⟩)

/-- Every other pixel is drawn from the fetched cell alone. -/
theorem drawPixelRow_cell (palette : Vector Colour 16) (onFrame : Bool) {cursor : Option (Nat × Fin 16)} {cells : List FetchedCell}
    {f : FetchedCell} {col x y : Nat} (hf : cells[col]? = some f) (hx : x < 8) (h : ∀ fg, cursor = some (col, fg) → y < 14) :
    (drawPixelRow palette onFrame cursor cells y)[8 * col + x]? = some (pixelColour palette onFrame f x y) := by
  rw [drawPixelRow, getElem?_flatten_map (a := (f, col)) (fun _ => by simp) hx (by simp [hf])]
  rw [List.getElem?_map, List.getElem?_range hx]
  cases cursor with
  | none => rfl
  | some e => exact congrArg some (if_neg fun ⟨hcol, hy⟩ => Nat.not_le.2 (h e.2 (congrArg some (Prod.ext hcol rfl))) hy)

/-- The pixel rows that a fetch of the next screen row draws from its row buffer. -/
theorem State.scanNextRow_pixelRow (s : State) (l : Latched) {y : Nat} (hy : y < 16) : (s.scanNextRow l).pixelRows.getD y []
    = drawPixelRow s.prof.palette s.onFrame (s.cursorOn l s.scanRow) (s.scanNextRow l).rowBuffer y := by
  simp [State.scanNextRow, List.getD_eq_getElem?_getD, hy]

theorem exec_scanRowFetch {s : State} {l : Latched} (hl : s.latched = some l) (hd : s.device = .ready)
    (hrow : s.scanRow < s.prof.gridRows) : exec .scanRowFetch s = .next (s.scanNextRow l) := by
  refine congrArg Host.Outcome.next ?_
  rw [hl]
  exact if_pos ⟨hd, hrow⟩

/-- Settles O46: a pixel is the cursor's where R95 draws one, and else has the colour of its cell in Table 5-1. -/
theorem pixelsFollowTheColourTable : Obligations.PixelsFollowTheColourTable := by
  intro s t l hl hd hrow ht col x y f hf hx hy onFrame set cursorAt pixel
  obtain rfl : s.scanNextRow l = t := Host.Outcome.next.inj ((exec_scanRowFetch hl hd hrow).symm.trans ht)
  have hpixel := congrArg (·[8 * col + x]?) (s.scanNextRow_pixelRow l hy)
  refine ⟨fun g w hcursor hbottom => ?_, fun hplain => ?_⟩
  · have hon : s.cursorOn l s.scanRow = some (col, g.fg) := (s.cursorOn_eq_some_iff l col s.scanRow g.fg).2 ⟨g, w, hcursor, rfl⟩
    rw [hon] at hpixel
    exact hpixel.trans (drawPixelRow_cursor _ _ _ hf hx hbottom)
  · have hcell : pixel = some (pixelColour s.prof.palette s.onFrame f x y) := by
      refine hpixel.trans (drawPixelRow_cell _ _ hf hx fun fg hon => ?_)
      obtain ⟨g, w, hcursor, -⟩ := (s.cursorOn_eq_some_iff l col s.scanRow fg).1 hon
      exact hplain.resolve_left fun hnone => hnone g w hcursor
    refine ⟨fun hblink hoff => ?_, fun hshown => ?_⟩
    · have hframe : s.onFrame = false := Bool.eq_false_iff.2 (mt s.onFrame_iff.1 hoff)
      rw [hcell, hframe, pixelColour_off _ x y hblink]
    · rw [hcell, pixelColour_shown _ x y (hshown.imp_right s.onFrame_iff.2)]
      exact ⟨fun hset => congrArg some (if_pos hset), fun hclear => congrArg some (if_neg hclear)⟩

end Sys2Proof.Machine
end

section
namespace Sys2Proof.Machine

-- One theorem is checked at a time, for the memory limit.
set_option Elab.async false

/-! The session commands and the lease timers: what ATTACH, RENEW and DETACH do by port state, the entry to CLOSING block by block, and
the lapse with its records in order. -/

/-! ## Replies by port state (Table 6-2) -/

/-- A frame on a READY device is answered by its own rule. -/
theorem State.answer_ready {s : State} (h : s.device = .ready) (p : Port) (tag : Byte) (u : State) : s.answer p tag u = u := by
  rw [State.answer, h]

theorem State.takeAttach_detached {s : State} {p : Port} (h : (s.port p).state = .detached) (tag : Byte) :
    s.takeAttach p tag = (s.setPort p ((s.port p).startSession (s.portProf p).leasePeriod)).ack p tag
      (.attach ((s.port p).epoch + 1) s.prof.gridCols s.prof.gridRows (s.portProf p)) := by
  rw [State.takeAttach, h]
  simp only [State.port_setPort_self]
  rfl

theorem State.takeRenew_live {s : State} {p : Port} (h : (s.port p).state = .live) (tag : Byte) :
    s.takeRenew p tag = (s.setPort p ((s.port p).renewLease (s.portProf p).leasePeriod)).ack p tag
      (.renew (s.port p).epoch (s.portProf p).leasePeriod false) := by
  rw [State.takeRenew, h]

theorem State.takeRenew_lapsed {s : State} {p : Port} (h : (s.port p).state = .lapsed) (tag : Byte) :
    s.takeRenew p tag
      = ((s.restore p).ack p tag (.renew (s.port p).epoch (s.portProf p).leasePeriod true)).arbitrate := by
  rw [State.takeRenew, h]

theorem State.takeDetach_open {s : State} {p : Port} (h : (s.port p).state = .live ∨ (s.port p).state = .lapsed) (tag : Byte) :
    s.takeDetach p tag = (s.enterClosing p).ack p tag (.detach (s.port p).epoch (s.port p).state) := by
  rw [State.takeDetach]
  rcases h with h | h <;> rw [h]

/-- Settles O10: on a READY device each frame is answered by its port state, in whose case the next state is the stated one. -/
theorem attachAndRenewRunTheSession : Obligations.AttachAndRenewRunTheSession := by
  refine ⟨fun s p tag hd h => congrArg Host.Outcome.next ?_, fun s p tag hd =>
    ⟨fun h => congrArg Host.Outcome.next ?_, fun h => congrArg Host.Outcome.next ?_⟩⟩
  · rw [State.answer_ready hd, State.takeAttach_detached h]
    rfl
  · rw [State.answer_ready hd, State.takeRenew_live h]
    rfl
  · rw [State.answer_ready hd, State.takeRenew_lapsed h]
    rfl

/-- Settles O13: each row tests its own condition and changes nothing where it fails. -/
theorem leaseWarningIsPostedOnce : Obligations.LeaseWarningIsPostedOnce := by
  refine fun s p => ⟨fun hl hw hh => congrArg Host.Outcome.next (if_pos ⟨hl, hw, hh⟩), fun h => congrArg Host.Outcome.next (if_neg ?_),
    fun h => congrArg Host.Outcome.next (if_neg ?_), fun h => congrArg Host.Outcome.next (if_neg ?_)⟩
  · rintro ⟨hl, hw, hh⟩
    simp [hl, hw, hh] at h
  · rintro ⟨hl, hz⟩
    simp [hl, hz] at h
  · rintro ⟨hl, hz⟩
    simp [hl, hz] at h

/-! ## Readings that depend on some fields alone -/

/-- A second write of what a port holds replaces the first. -/
@[simp] theorem State.setPort_setPort (s : State) (p : Port) (q r : PortRec) : (s.setPort p q).setPort p r = s.setPort p r := by
  simp [State.setPort]

/-- Exposure is computed from the windows and their renderings (R24). -/
theorem State.exposeFrom_congr {s t : State} (h : ∀ w, t.rendering w = s.rendering w) (above : List Rect) (ws : List Window) :
    t.exposeFrom above ws = s.exposeFrom above ws := by
  induction ws generalizing above with
  | nil => rfl
  | cons w ws ih =>
    rw [State.exposeFrom_cons, State.exposeFrom_cons, State.exposedUnder, State.exposedUnder, State.viewsUnder, State.viewsUnder, h, ih]

/-- The recomputation changes the two computed fields of each window alone (R16, R24). -/
theorem State.exposeFrom_bare (s : State) (above : List Rect) (ws : List Window) :
    (s.exposeFrom above ws).map Window.bare = ws.map Window.bare := by
  induction ws generalizing above with
  | nil => rfl
  | cons w ws ih =>
    have hw : (s.exposedUnder above w).bare = w.bare := by unfold State.exposedUnder; split <;> rfl
    rw [State.exposeFrom_cons, List.map_cons, List.map_cons, ih, hw]

/-- The owners of the windows in stack order are those from before a recomputation. -/
theorem State.owners_recomputeExposure (s : State) :
    s.recomputeExposure.windows.map (fun w => w.owner) = s.windows.map (fun w => w.owner) := by
  have h := congrArg (List.map fun w : Window => w.owner) (s.exposeFrom_bare [] s.windows)
  rw [List.map_map, List.map_map] at h
  rw [State.recomputeExposure_windows]
  exact h

/-- The sounding choice is made from the tone requests alone (R159). -/
theorem State.soundingChoice_congr {s t : State} (h : ∀ p, (t.port p).tone = (s.port p).tone) : t.soundingChoice = s.soundingChoice := by
  have hstep : t.soundStep = s.soundStep := by
    funext best p
    simp only [State.soundStep, h]
  rw [State.soundingChoice, State.soundingChoice, hstep]

theorem State.drivenPitch_congr {s t : State} (h : ∀ p, (t.port p).tone = (s.port p).tone) (sounding : Option Port) :
    t.drivenPitch sounding = s.drivenPitch sounding := by
  simp only [State.drivenPitch, h]

/-! ## What a recomputation posts, port by port (R25, R125) -/

/-- A record posted to a port that takes none is dropped (R125). -/
theorem State.post_dropped {s : State} {p : Port} (h : (s.port p).state.takesRecords = false) (body : EventBody) (hd : Option Handle) :
    s.post p body hd = s := by
  rw [State.post_eq, h]
  exact s.setPort_port p

/-- What a post leaves a port depends on what that port held and on the time base alone. -/
theorem State.port_post_congr {s t : State} {q : Port} (hq : t.port q = s.port q) (ht : t.timeBase = s.timeBase) (p : Port)
    (body : EventBody) (h : Option Handle) : (t.post p body h).port q = (s.post p body h).port q := by
  rw [State.post_eq, State.post_eq, State.port_setPort, State.port_setPort, ht]
  split
  · rename_i hp
    rw [← hp, hq]
  · exact hq

theorem State.post_timeBase (s : State) (p : Port) (body : EventBody) (h : Option Handle) : (s.post p body h).timeBase = s.timeBase := by
  rw [State.post_eq]
  rfl

theorem State.port_foldl_postExposure_congr (ws : List Window) {s t : State} {q : Port} (hq : t.port q = s.port q)
    (ht : t.timeBase = s.timeBase) : (ws.foldl State.postExposure t).port q = (ws.foldl State.postExposure s).port q := by
  induction ws generalizing s t with
  | nil => exact hq
  | cons w ws ih =>
    refine ih (State.port_post_congr hq ht _ _ _) ?_
    rw [State.postExposure, State.postExposure, State.post_timeBase, State.post_timeBase, ht]

/-- What a recomputation leaves a port depends on what that port held, on the windows and on the port states alone. -/
theorem State.port_recomputeExposure_congr {s t : State} {q : Port} (hq : t.port q = s.port q) (ht : t.timeBase = s.timeBase)
    (hw : t.windows = s.windows) (hr : ∀ w, t.rendering w = s.rendering w) : t.recomputeExposure.port q = s.recomputeExposure.port q := by
  unfold State.recomputeExposure
  rw [hw, State.exposeFrom_congr hr]
  exact State.port_foldl_postExposure_congr _ hq ht

/-- A recomputation changes nothing held for a port that takes no records. -/
theorem State.port_recomputeExposure_silent {s : State} {p : Port} (h : (s.port p).state.takesRecords = false) :
    s.recomputeExposure.port p = s.port p := by
  have hfold (ws : List Window) (t : State) (ht : t.port p = s.port p) : (ws.foldl State.postExposure t).port p = s.port p := by
    induction ws generalizing t with
    | nil => exact ht
    | cons w ws ih =>
      refine ih _ ?_
      by_cases hp : w.owner = p
      · rw [State.postExposure, State.post_dropped (by rw [hp, ht, h]), ht]
      · rw [State.postExposure, State.post_port_ne _ _ _ (Ne.symm hp), ht]
  exact hfold _ _ rfl

/-- A recomputation changes the windows and the posted records only. -/
theorem State.recomputeExposure_frame (s : State) :
    s.recomputeExposure = { s with windows := s.recomputeExposure.windows, ports := s.recomputeExposure.ports } := by
  rw [State.recomputeExposure_windows]
  exact s.recomputeExposure_records.1

theorem State.recomputeExposure_tone (s : State) (p : Port) : (s.recomputeExposure.port p).tone = (s.port p).tone := by
  rw [s.recomputeExposure_records.2 p]
  rfl

/-! ## The entry to CLOSING (R116) -/

/-- The port's own part of its entry to CLOSING, the router's part and the tone unit's (R101, R115, R133, R145, R151, R157, R164). -/
def State.closed (s : State) (p : Port) : State := ((s.setPort p (s.port p).close).closeInput p).chooseTone

/-- The same after the recomputation of exposure that an entry from LIVE makes (R25). -/
def State.closedExposed (s : State) (p : Port) : State :=
  if (s.port p).state = .live then (s.closed p).recomputeExposure else s.closed p

theorem State.enterClosing_eq (s : State) (p : Port) : s.enterClosing p = if s.slice = some p then s.closedExposed p
    else ((s.closedExposed p).setPort p ((s.closedExposed p).port p).discardQueue).teardownNotice p := by
  have hlive : ((s.port p).state == .live) = decide ((s.port p).state = .live) := by
    cases (s.port p).state <;> rfl
  unfold State.enterClosing State.closedExposed
  simp only [hlive, decide_eq_true_eq]
  rfl

theorem State.port_closed (s : State) (p q : Port) : (s.closed p).port q = if q = p then (s.port p).close else s.port q :=
  s.port_setPort p q _

/-- The port itself takes no record of the recomputation, so it holds what its own entry left. -/
theorem State.port_closedExposed_self (s : State) (p : Port) : (s.closedExposed p).port p = (s.port p).close := by
  have hself : (s.closed p).port p = (s.port p).close := by rw [State.port_closed, if_pos rfl]
  unfold State.closedExposed
  split
  · rw [State.port_recomputeExposure_silent (by rw [hself]; rfl), hself]
  · exact hself

/-- The entry closes input and sound before its recomputation, which looks at the windows and the port states alone. -/
theorem State.closed_rendering (s : State) (p : Port) (w : Window) :
    (s.closed p).rendering w = (s.setPort p { s.port p with state := .closing }).rendering w := by
  refine State.rendering_congr (fun q => ?_) w
  rw [State.port_closed, State.port_setPort]
  split <;> rfl

theorem State.port_closedExposed_ne (s : State) {p q : Port} (h : q ≠ p) : (s.closedExposed p).port q = (s.closingExposure p).port q := by
  have hport : (s.closed p).port q = s.port q := by rw [State.port_closed, if_neg h]
  unfold State.closedExposed State.closingExposure
  split
  · refine State.port_recomputeExposure_congr ?_ rfl rfl (s.closed_rendering p)
    rw [hport, State.port_setPort_ne _ _ h]
  · exact hport

theorem State.windows_closedExposed (s : State) (p : Port) : (s.closedExposed p).windows = (s.closingExposure p).windows := by
  unfold State.closedExposed State.closingExposure
  split
  · rw [State.recomputeExposure_windows, State.recomputeExposure_windows, State.exposeFrom_congr (s.closed_rendering p)]
    rfl
  · rfl

/-- The port owns a window after the recomputation exactly when it did before. -/
theorem State.owners_closingExposure (s : State) (p : Port) :
    (s.closingExposure p).windows.map (fun w => w.owner) = s.windows.map (fun w => w.owner) := by
  unfold State.closingExposure
  split
  · exact State.owners_recomputeExposure _
  · rfl

theorem State.closedExposed_frame (s : State) (p : Port) : s.closedExposed p
    = { s.closed p with windows := (s.closedExposed p).windows, ports := (s.closedExposed p).ports } := by
  unfold State.closedExposed
  split
  · exact (s.closed p).recomputeExposure_frame
  · rfl

theorem State.any_owner_iff (s : State) (p : Port) : s.windows.any (fun w => w.owner == p) = true ↔ s.ownsWindow p := by
  simp [State.ownsWindow]

theorem any_owner_eq (ws : List Window) (p : Port) : ws.any (fun w => w.owner == p) = (ws.map (fun w => w.owner)).any (· == p) := by
  rw [List.any_map]
  rfl

/-- The teardown notice (R42, R117, R118): the grants to the port go, and a port that owns no window ends its teardown at once. -/
theorem State.teardownNotice_eq (s : State) (p : Port) : s.teardownNotice p
    = { s with windows := s.windows.map (Window.ungrant p) }.setPort p (if s.windows.any (fun w => w.owner == p) then s.port p
        else { s.port p with state := .detached, bank := Vector.replicate 64 blankPattern }) := by
  have hany : (s.windows.map (Window.ungrant p)).any (fun w => w.owner == p) = s.windows.any (fun w => w.owner == p) := by
    rw [List.any_map]
    rfl
  rw [State.teardownNotice, State.completeTeardown_eq, hany]
  split
  · exact (State.setPort_port _ p).symm
  · rfl

/-- What the port itself holds after its entry to CLOSING: with a slice of it in flight it keeps its commands, else they go, and
with no window left its teardown is over (R61, R117, R118). -/
def PortRec.afterClosing (q : PortRec) (inFlight owns : Bool) : PortRec :=
  if inFlight then q.close
  else if owns then q.close.discardQueue
  else { q.close.discardQueue with state := .detached, bank := Vector.replicate 64 blankPattern }

/-- The whole of an entry to CLOSING (R116, R117). -/
theorem State.enterClosing_whole (s : State) (p : Port) : s.enterClosing p
    = { s.closedExposed p with
        windows := (s.closedExposed p).windows.map (fun w => if s.slice = some p then w else Window.ungrant p w) }.setPort p
        ((s.port p).afterClosing (decide (s.slice = some p)) (s.windows.any (fun w => w.owner == p))) := by
  have hself := s.port_closedExposed_self p
  rw [State.enterClosing_eq]
  by_cases h : s.slice = some p
  · simp only [h, if_true, List.map_id', decide_true, PortRec.afterClosing]
    rw [← hself]
    exact (State.setPort_port _ p).symm
  · have hany : (s.closedExposed p).windows.any (fun w => w.owner == p) = s.windows.any (fun w => w.owner == p) := by
      rw [State.windows_closedExposed, any_owner_eq, State.owners_closingExposure, ← any_owner_eq]
    rw [if_neg h, State.teardownNotice_eq, State.setPort_windows, hany, State.port_setPort_self, hself, decide_eq_false h]
    simp only [h, if_false]
    exact State.setPort_setPort { s.closedExposed p with windows := (s.closedExposed p).windows.map (Window.ungrant p) } p _ _

theorem State.key_dropPort (s : State) (p : Port) (k : KeyId) : (s.closeInput p).key k = KeyRec.dropPort p (s.key k) := by
  simp [State.key, State.closeInput, Vector.get_eq_getElem]

/-- The tone requests after an entry to CLOSING are those that its sounding choice was made from (R159, R164). -/
theorem State.tone_closedExposed (s : State) (p q : Port) : ((s.closedExposed p).port q).tone = ((s.closed p).port q).tone := by
  unfold State.closedExposed
  split
  · exact State.recomputeExposure_tone _ q
  · rfl

/-! What the port itself is left with, field by field. -/

theorem PortRec.afterClosing_state (q : PortRec) (inFlight owns : Bool) :
    (q.afterClosing inFlight owns).state = if inFlight ∨ owns then .closing else .detached := by
  cases inFlight <;> cases owns <;> rfl

theorem PortRec.afterClosing_bank (q : PortRec) (inFlight owns : Bool) :
    (q.afterClosing inFlight owns).bank = if inFlight ∨ owns then q.bank else Vector.replicate 64 blankPattern := by
  cases inFlight <;> cases owns <;> rfl

theorem PortRec.afterClosing_commands (q : PortRec) (inFlight owns : Bool) :
    (q.afterClosing inFlight owns).queue = (if inFlight then q.queue else [])
      ∧ (q.afterClosing inFlight owns).progress = (if inFlight then q.progress else .fresh)
      ∧ (q.afterClosing inFlight owns).stopMark = (if inFlight then q.stopMark else false) := by
  cases inFlight <;> cases owns <;> exact ⟨rfl, rfl, rfl⟩

/-- The fields that an entry to CLOSING leaves alike, with a slice in flight or without. -/
theorem PortRec.afterClosing_closed (q : PortRec) (inFlight owns : Bool) : q.afterClosing inFlight owns
    = { q.close with
        state := (q.afterClosing inFlight owns).state, bank := (q.afterClosing inFlight owns).bank
        queue := (q.afterClosing inFlight owns).queue, progress := (q.afterClosing inFlight owns).progress
        stopMark := (q.afterClosing inFlight owns).stopMark } := by
  cases inFlight <;> cases owns <;> rfl

theorem State.port_enterClosing_self (s : State) (p : Port) : (s.enterClosing p).port p
    = (s.port p).afterClosing (decide (s.slice = some p)) (s.windows.any (fun w => w.owner == p)) := by
  rw [State.enterClosing_whole, State.port_setPort_self]

theorem State.port_enterClosing_ne (s : State) {p q : Port} (h : q ≠ p) :
    (s.enterClosing p).port q = (s.closingExposure p).port q := by
  rw [State.enterClosing_whole, State.port_setPort_ne _ _ h]
  exact s.port_closedExposed_ne h

/-- An entry to CLOSING changes input, sound, windows and ports alone. -/
theorem State.enterClosing_frame (s : State) (p : Port) : s.enterClosing p
    = { s.closed p with windows := (s.enterClosing p).windows, ports := (s.enterClosing p).ports } := by
  have h := s.enterClosing_whole p
  rw [s.closedExposed_frame p] at h
  rw [h]
  rfl

theorem State.tone_enterClosing (s : State) (p q : Port) :
    ((s.enterClosing p).port q).tone = ((s.setPort p (s.port p).close).port q).tone := by
  by_cases h : q = p
  · rw [h, State.port_enterClosing_self, PortRec.afterClosing_closed, State.port_setPort_self]
  · rw [State.port_enterClosing_ne s h, ← State.port_closedExposed_ne s h, State.tone_closedExposed]
    rfl

/-- An entry to CLOSING, in every block (R116). -/
theorem State.enterClosing_closes (s : State) (p : Port) : EntersClosing s (s.enterClosing p) p := by
  have hself := s.port_enterClosing_self p
  have hclosed := (s.port p).afterClosing_closed (decide (s.slice = some p)) (s.windows.any (fun w => w.owner == p))
  obtain ⟨hqueue, hprogress, hstop⟩ :=
    (s.port p).afterClosing_commands (decide (s.slice = some p)) (s.windows.any (fun w => w.owner == p))
  have hframe := s.enterClosing_frame p
  have htones := s.tone_enterClosing p
  have hsounding : (s.enterClosing p).sounding = (s.enterClosing p).soundingChoice := by
    rw [State.soundingChoice_congr htones, hframe]
    rfl
  constructor
  case panel => rw [hframe]; exact ⟨rfl, rfl, rfl, rfl, rfl, rfl, rfl, rfl, rfl, rfl, rfl, rfl, rfl, rfl⟩
  case store => rw [hframe]; exact ⟨rfl, rfl, rfl, rfl, rfl⟩
  case arbiter => rw [hframe]; exact ⟨rfl, rfl, rfl, rfl⟩
  case state => simp only [hself, PortRec.afterClosing_state, State.any_owner_iff, decide_eq_true_eq]
  case bank => simp only [hself, PortRec.afterClosing_bank, State.any_owner_iff, decide_eq_true_eq]
  case commands => simp only [hself, hqueue, decide_eq_true_eq]
  case head => simp only [hself, hprogress, hstop, decide_eq_true_eq, and_self]
  case timers => rw [hself, hclosed]; exact ⟨rfl, rfl, rfl, rfl⟩
  case queues => rw [hself, hclosed]; exact ⟨rfl, rfl, rfl⟩
  case requests => rw [hself, hclosed]; exact ⟨rfl, rfl, rfl⟩
  case link => rw [hself, hclosed]; exact ⟨rfl, rfl, rfl⟩
  case kept => rw [hself, hclosed]; exact ⟨rfl, rfl, rfl, rfl⟩
  case windows => rw [State.enterClosing_whole, ← State.windows_closedExposed]; rfl
  case focus => rw [hframe]; rfl
  case capture => rw [hframe]; rfl
  case keys => intro k; rw [hframe]; exact s.key_dropPort p k
  case sound =>
    refine ⟨by rw [hframe]; rfl, hsounding, ?_⟩
    rw [State.drivenPitch_congr htones, hframe]
    rfl
  case others => exact fun q h => s.port_enterClosing_ne h

/-! ## What leaves a list of ports (R42, R151) -/

theorem count_filter_ne (ps : List Port) (p q : Port) :
    (ps.filter (fun r => r != p)).count q = if q = p then 0 else ps.count q := by
  split
  · rename_i h
    subst h
    exact List.count_eq_zero.2 fun hq => by simpa using (List.mem_filter.1 hq).2
  · rename_i h
    exact List.count_filter (by simpa using h)

/-- Settles O11: each way out of a session is an entry to CLOSING, which `enterClosing_closes` gives block by block. -/
theorem detachAndExpiryCloseThePort : Obligations.DetachAndExpiryCloseThePort := by
  refine ⟨fun p k => ⟨fun h => ?_, fun c h => ?_⟩, fun p w => ⟨_, rfl, List.filter_sublist, count_filter_ne w.grants p⟩,
    fun s p tag => ⟨fun st hd hst hopen => ?_, fun hst hz => ?_, fun hst hz hg => ?_⟩⟩
  · rw [KeyRec.dropPort, h]
    exact congrArg (fun c => { k with capture := c }) h.symm
  · refine ⟨c.ports.filter (fun q => q != p), ?_, List.filter_sublist, count_filter_ne c.ports p⟩
    rw [KeyRec.dropPort, h]
    rfl
  · refine ⟨s.enterClosing p, congrArg Host.Outcome.next ?_, s.enterClosing_closes p⟩
    rw [State.answer_ready hd, State.takeDetach_open (hst ▸ hopen), hst]
    rfl
  · exact ⟨s.enterClosing p, congrArg Host.Outcome.next (if_pos ⟨hst, hz⟩), s.enterClosing_closes p⟩
  · refine ⟨s.enterClosing p, congrArg Host.Outcome.next ((if_pos ⟨hst, hz⟩).trans ?_), s.enterClosing_closes p⟩
    exact if_pos hg

/-! ## Records that join one after another (R125) -/

/-- What a port holds after records have been posted to it in order, while it takes records. -/
def PortRec.receive (q : PortRec) (rs : List Record) : PortRec := rs.foldl PortRec.join q

theorem OnlyRecords.trans {q r u : PortRec} (h : OnlyRecords q r) (h' : OnlyRecords r u) : OnlyRecords q u := by
  unfold OnlyRecords at *
  rw [h', h]

theorem PortRec.receive_only (q : PortRec) (rs : List Record) : OnlyRecords q (q.receive rs) := by
  induction rs generalizing q with
  | nil => rfl
  | cons r rs ih => exact OnlyRecords.trans (q.join_only r) (ih (q.join r))

theorem PortRec.receive_append (q : PortRec) (rs us : List Record) : q.receive (rs ++ us) = (q.receive rs).receive us :=
  List.foldl_append

/-- Records join a queue whose open places hold them all (R125). -/
theorem PortRec.receive_events (q : PortRec) (rs : List Record) (h : q.events.length + rs.length ≤ Config.openEventPlaces) :
    (q.receive rs).events = q.events ++ rs := by
  induction rs generalizing q with
  | nil => exact (List.append_nil _).symm
  | cons r rs ih =>
    have hplaces : Config.openEventPlaces < Config.eventPlaces := by decide
    have hlen : q.events.length < Config.openEventPlaces := by rw [List.length_cons] at h; omega
    have hfilter := List.length_filter_le (fun r : Record => !r.body.isFailed) q.events
    have hplace : hasPlace q.events r.body.isFailed = true := by
      simp only [hasPlace, Bool.and_eq_true, Bool.or_eq_true, decide_eq_true_eq]
      exact ⟨by omega, .inr (by omega)⟩
    have hjoin : q.join r = { q with events := q.events ++ [r] } := if_pos hplace
    have hrest := ih (q.join r) (by rw [hjoin, List.length_append]; simp only [List.length_cons, List.length_nil] at h ⊢; omega)
    rw [hjoin, List.append_assoc] at hrest
    rw [PortRec.receive, List.foldl_cons, hjoin]
    exact hrest

/-- A post to a port that has just been written and takes records. -/
theorem State.post_setPort (s : State) {p : Port} {q : PortRec} (h : q.state.takesRecords = true) (body : EventBody)
    (hd : Option Handle) : (s.setPort p q).post p body hd = s.setPort p (q.receive [⟨body, s.timeBase, hd, false⟩]) := by
  rw [State.post_eq, State.port_setPort_self, if_pos h, State.setPort_setPort]
  rfl

/-! ## The lapse, block by block (R111) -/

/-- The FOCUS_LOST that a lapse of port `p` posts, if the key focus window is one of the port's (R157). -/
def State.lapsedFocus (s : State) (p : Port) : List Record :=
  match s.focusWindow with
  | some w => if w.owner = p then [⟨.focusLost .lapsed, s.timeBase, some w.handle, false⟩] else []
  | none => []

/-- The TOUCH_CANCEL that a lapse of port `p` posts, if one of the port's windows holds the capture (R144). -/
def State.lapsedCapture (s : State) (p : Port) : List Record :=
  match s.capture with
  | .captured h o => if o = p then [⟨.touchCancel .lapsed, s.timeBase, some h, false⟩] else []
  | _ => []

/-- The TONE_ENDED that a lapse posts at a time for a port's request, if it is of the BASE band and asks for its end report (R164,
R165). -/
def lapsedTone (time : BitVec 16) : Option Tone → List Record
  | some u => if u.band = .base ∧ u.endReport = true then [⟨.toneEnded u.tag .lapsed, time, none, false⟩] else []
  | none => []

theorem State.focus_of_focusWindow {s : State} {w : Window} (h : s.focusWindow = some w) : s.focus = some w.handle := by
  obtain ⟨hd, hfocus, hw⟩ := Option.bind_eq_some_iff.1 h
  have hhandle : (w.handle == hd) = true := List.find?_some (p := fun x : Window => x.handle == hd) hw
  rw [hfocus, eq_of_beq hhandle]

theorem State.focusOwner_eq (s : State) : s.focusOwner = s.focusWindow.map (·.owner) := rfl

/-- Key focus leaves a lapsing port's window, with the record that is due. -/
theorem State.lapseFocus_setPort (s : State) {p : Port} {q : PortRec} (h : q.state.takesRecords = true) :
    (s.setPort p q).lapseFocus p
      = { s with focus := if s.focusOwner = some p then none else s.focus }.setPort p (q.receive (s.lapsedFocus p)) := by
  have hwindow : (s.setPort p q).focusWindow = s.focusWindow := rfl
  unfold State.lapseFocus State.lapsedFocus
  rw [hwindow, State.focusOwner_eq]
  cases hw : s.focusWindow with
  | none => rfl
  | some w =>
    simp only [Option.map_some, Option.some.injEq]
    by_cases ho : w.owner = p
    · have hfocus : (s.setPort p q).focus = some w.handle := s.focus_of_focusWindow hw
      simp only [State.withdrawFocus, ho, if_pos hfocus, if_true]
      exact State.post_setPort { s with focus := none } h _ _
    · simp only [ho, if_false]
      rfl

/-- The touch capture leaves a lapsing port's window, with the record that is due. -/
theorem State.cancelLapsed_setPort (s : State) {p : Port} {q : PortRec} (h : q.state.takesRecords = true) :
    (s.setPort p q).cancelLapsed p
      = { s with capture := match s.capture with | .captured h o => if o = p then .orphan else .captured h o | c => c }.setPort p
          (q.receive (s.lapsedCapture p)) := by
  have hcapture : (s.setPort p q).capture = s.capture := rfl
  unfold State.cancelLapsed State.lapsedCapture
  rw [hcapture]
  cases hc : s.capture with
  | idle => exact congrArg (fun c => { s with capture := c }.setPort p q) hc
  | orphan => exact congrArg (fun c => { s with capture := c }.setPort p q) hc
  | captured hd o =>
    by_cases ho : o = p
    · simp only [ho, if_true]
      exact State.post_setPort { s with capture := .orphan } h _ _
    · simp only [ho, if_false]
      exact congrArg (fun c => { s with capture := c }.setPort p q) hc

/-- A port without the request of the BASE band that it may have had. -/
def PortRec.dropBase (q : PortRec) : PortRec := { q with tone := q.tone.filter (fun u => u.band != .base) }

/-- What a lapse ends of a port's request: a BASE request goes, with its record if that is due; any other goes on (R164). -/
def PortRec.endBase (q : PortRec) (time : BitVec 16) : PortRec :=
  q.dropBase.receive (lapsedTone time q.tone)

/-- A port has a request of the BASE band. -/
def PortRec.hasBase (q : PortRec) : Bool := q.tone.any (fun u => u.band == .base)

/-- A port's BASE request ends at its lapse, and then the sounding choice is made again (R164). -/
theorem State.endBase_setPort (s : State) {p : Port} {q : PortRec} (h : q.state.takesRecords = true) :
    (s.setPort p q).endToneIf p (fun b => b == .base) .lapsed
      = if q.hasBase then (s.setPort p (q.endBase s.timeBase)).chooseTone else s.setPort p (q.endBase s.timeBase) := by
  unfold State.endToneIf State.endTone PortRec.endBase PortRec.dropBase PortRec.hasBase
  simp only [State.port_setPort_self, State.setPort_setPort]
  cases ht : q.tone with
  | none => exact congrArg (fun t => s.setPort p { q with tone := t }) ht
  | some u =>
    by_cases hb : u.band = .base
    · cases he : u.endReport with
      | true => simp [hb, he, lapsedTone, Option.filter_some, State.post_setPort s (q := { q with tone := none }) h]
      | false => simp [hb, he, lapsedTone, Option.filter_some, PortRec.receive]
    · simp only [Option.any_some, Option.filter_some, beq_eq_false_iff_ne.2 hb, bne, Bool.not_false, lapsedTone, hb, false_and,
        if_true, if_false, Bool.false_eq_true]
      exact congrArg (fun t => s.setPort p { q with tone := t }) ht

/-- Focus and capture after a lapse of port `p` (R111). -/
def State.lapsedInput (s : State) (p : Port) : State :=
  { s with
    focus := if s.focusOwner = some p then none else s.focus
    capture := match s.capture with | .captured h o => if o = p then .orphan else .captured h o | c => c }

/-- The port LAPSED with its grace running (R111). -/
def PortRec.lapse (q : PortRec) (grace : Nat) : PortRec := { q with state := .lapsed, lease := 0, grace := grace }

/-- The port itself after its lapse, before the end of its tone request: LAPSED, its grace running, and the records due so far. -/
def State.lapsedPort (s : State) (p : Port) : PortRec :=
  ((s.port p).lapse (s.portProf p).gracePeriod).receive
    ([⟨.leaseLapsed (s.portProf p).gracePeriod, s.timeBase, none, false⟩] ++ s.lapsedFocus p ++ s.lapsedCapture p)

theorem State.lapsedPort_only (s : State) (p : Port) : OnlyRecords ((s.port p).lapse (s.portProf p).gracePeriod) (s.lapsedPort p) :=
  PortRec.receive_only _ _

/-- The state after a lapse but for the choice of the sounding request and the recomputation of exposure. -/
def State.lapsed (s : State) (p : Port) : State :=
  (s.lapsedInput p).setPort p ((s.lapsedPort p).endBase s.timeBase)

/-- A lapse as a whole (R111): the records of the port in their order, then exposure. -/
theorem State.lapse_eq (s : State) (p : Port) : s.lapse p
    = (if (s.port p).hasBase then (s.lapsed p).chooseTone else s.lapsed p).recomputeExposure := by
  have htakes (rs : List Record) : (((s.port p).lapse (s.portProf p).gracePeriod).receive rs).state.takesRecords = true := by
    rw [PortRec.receive_only _ rs]
    rfl
  have hlapsed : (s.lapsedPort p).state.takesRecords = true := htakes _
  have hbase : (s.lapsedPort p).hasBase = (s.port p).hasBase := by
    rw [State.lapsedPort_only]
    rfl
  have hchain : (((s.setPort p ((s.port p).lapse (s.portProf p).gracePeriod)).post p (.leaseLapsed (s.portProf p).gracePeriod)
      none).lapseFocus p).cancelLapsed p = (s.lapsedInput p).setPort p (s.lapsedPort p) := by
    rw [State.post_setPort s rfl, State.lapseFocus_setPort s (htakes _), ← PortRec.receive_append,
      State.cancelLapsed_setPort _ (htakes _), ← PortRec.receive_append]
    rfl
  have htone := (s.lapsedInput p).endBase_setPort (p := p) hlapsed
  rw [hbase, ← hchain] at htone
  exact congrArg State.recomputeExposure htone

/-- The state from which a lapse recomputes exposure differs from `lapsed` in the sounding choice alone. -/
theorem State.lapsed_sound (s : State) (p : Port) : (if (s.port p).hasBase then (s.lapsed p).chooseTone else s.lapsed p)
    = { s.lapsed p with
        sounding := if (s.port p).hasBase then (s.lapsed p).soundingChoice else s.sounding
        sounder := if (s.port p).hasBase then (s.lapsed p).drivenPitch (s.lapsed p).soundingChoice else s.sounder } := by
  split <;> rfl

theorem State.endBase_lapsedPort_only (s : State) (p : Port) : OnlyRecords
    { s.port p with
      state := .lapsed, lease := 0, grace := (s.portProf p).gracePeriod
      tone := (s.port p).tone.filter (fun u => u.band != .base) } ((s.lapsedPort p).endBase s.timeBase) := by
  have htone : OnlyRecords ((s.port p).lapse (s.portProf p).gracePeriod).dropBase (s.lapsedPort p).dropBase :=
    congrArg PortRec.dropBase (s.lapsedPort_only p)
  exact OnlyRecords.trans htone (PortRec.receive_only _ _)

theorem length_due_le (c : Prop) [Decidable c] (r : Record) : (if c then [r] else []).length ≤ 1 := by
  split
  · exact Nat.le_refl 1
  · exact Nat.zero_le 1

theorem State.length_lapsedFocus_le (s : State) (p : Port) : (s.lapsedFocus p).length ≤ 1 := by
  unfold State.lapsedFocus
  split
  · exact length_due_le _ _
  · exact Nat.zero_le 1

theorem State.length_lapsedCapture_le (s : State) (p : Port) : (s.lapsedCapture p).length ≤ 1 := by
  unfold State.lapsedCapture
  split
  · exact length_due_le _ _
  · exact Nat.zero_le 1

theorem length_lapsedTone_le (time : BitVec 16) (t : Option Tone) : (lapsedTone time t).length ≤ 1 := by
  unfold lapsedTone
  split
  · exact length_due_le _ _
  · exact Nat.zero_le 1

/-- The records of a lapse that an empty event queue takes, in the order of R111. -/
theorem State.lapsed_events {s : State} {p : Port} (h : (s.port p).events = []) : ((s.lapsedPort p).endBase s.timeBase).events
    = [⟨.leaseLapsed (s.portProf p).gracePeriod, s.timeBase, none, false⟩] ++ s.lapsedFocus p ++ s.lapsedCapture p
      ++ lapsedTone s.timeBase (s.port p).tone := by
  have hfocus := s.length_lapsedFocus_le p
  have hcapture := s.length_lapsedCapture_le p
  have htoneLength := length_lapsedTone_le s.timeBase (s.port p).tone
  have hempty : ((s.port p).lapse (s.portProf p).gracePeriod).events = [] := h
  have hplaces : Config.openEventPlaces = 14 := rfl
  have hbefore : (s.lapsedPort p).dropBase.events
      = [⟨.leaseLapsed (s.portProf p).gracePeriod, s.timeBase, none, false⟩] ++ s.lapsedFocus p ++ s.lapsedCapture p := by
    show (s.lapsedPort p).events = _
    rw [State.lapsedPort, PortRec.receive_events]
    · rw [hempty, List.nil_append]
    · simp only [hempty, List.length_append, List.length_cons, List.length_nil]
      omega
  have htone : (s.lapsedPort p).tone = (s.port p).tone := by
    rw [State.lapsedPort_only]
    rfl
  rw [PortRec.endBase, PortRec.receive_events]
  · rw [htone, hbefore]
  · simp only [hbefore, htone, List.length_append, List.length_cons, List.length_nil]
    omega

/-- Settles O12: the state `lapsed` with the sounding choice made again where the BASE request ended, before exposure. -/
theorem leaseExpiryLapsesThePort : Obligations.LeaseExpiryLapsesThePort := by
  intro s p hlive hzero hgrace
  have hexec : exec (.leaseExpiry p) s = .next (s.lapse p) :=
    congrArg Host.Outcome.next ((if_pos ⟨hlive, hzero⟩).trans (if_neg (Nat.pos_iff_ne_zero.1 hgrace)))
  have hport : (s.lapsed p).port p = (s.lapsedPort p).endBase s.timeBase := State.port_setPort_self _ _ _
  refine ⟨_, hexec.trans (congrArg Host.Outcome.next (s.lapse_eq p)), ?_⟩
  rw [s.lapsed_sound p]
  refine ⟨hport ▸ s.endBase_lapsedPort_only p, fun q hq => State.port_setPort_ne (s.lapsedInput p) _ hq, rfl, rfl, rfl, rfl, rfl,
    rfl, rfl, rfl, rfl, ⟨rfl, rfl, rfl, rfl, rfl, rfl, rfl, rfl, rfl, rfl, rfl, rfl, rfl, rfl⟩, ⟨rfl, rfl, rfl, rfl⟩, rfl,
    ?_, ?_, fun hevents => ?_⟩
  · unfold PortRec.hasBase
    cases (s.port p).tone with
    | none => rfl
    | some u => simp only [Option.any_some, beq_iff_eq]; rfl
  · unfold PortRec.hasBase
    cases (s.port p).tone with
    | none => rfl
    | some u => simp only [Option.any_some, beq_iff_eq]; rfl
  · exact (congrArg PortRec.events hport).trans (State.lapsed_events hevents)

end Sys2Proof.Machine
end

section
namespace Sys2Proof.Machine

-- One theorem is checked at a time, for the memory limit.
set_option Elab.async false

/-! What the part does while no command waits (log 2). -/

/-! ## The three ways of an empty queue -/

theorem step_empty {s : State} (h : s.pending = []) : step s = .next s.idle := by
  rw [step, h]

theorem State.idle_held {s : State} (h : s.device = .held) : s.idle = s := by
  rw [State.idle, h]

theorem State.idle_running {s : State} (h : s.device ≠ .held) : s.idle = match s.sliceInstr with
    | some i => { s with pending := [i] }
    | none => s.tick := by
  unfold State.idle
  split
  · exact absurd ‹_› h
  · rfl

/-- The slice in flight comes to its step (R52). -/
theorem State.sliceInstr_head {s : State} {p : Port} {c : QCmd} (h : HeadInFlight s p c) : s.sliceInstr = some (sliceOf c.kind p) := by
  obtain ⟨hslice, hhead⟩ := h
  rw [State.sliceInstr, hslice]
  cases hq : (s.port p).queue with
  | nil => simp [hq] at hhead
  | cons x rest =>
    have hx : x = c := by simpa [hq] using hhead
    simp [hq, hx]

theorem State.sliceInstr_none {s : State} (h : s.slice = none) : s.sliceInstr = none := by
  rw [State.sliceInstr, h]

theorem State.key_advanceTime (s : State) (k : KeyId) : s.advanceTime.key k = (s.key k).tick := by
  simp [State.key, State.advanceTime, Vector.get_eq_getElem]

/-! ## What falls due -/

/-- A request expires at 40 ms for a CHIRP, and else at its duration if it has one (R162). -/
theorem State.toneDue_eq (s : State) (p : Port) : s.toneDue p = match (s.port p).tone with
    | some u => decide ((u.pattern = .chirp ∧ 40 ≤ u.age) ∨ (u.pattern ≠ .chirp ∧ u.duration ≠ 0 ∧ 100 * u.duration ≤ u.age))
    | none => false := by
  unfold State.toneDue
  cases (s.port p).tone with
  | none => rfl
  | some u =>
    cases hp : u.pattern <;> by_cases hd : u.duration = 0 <;> simp [Tone.endTime, hp, hd]

/-- The expiry that is due for a port's request. -/
theorem State.toneDue_instr (s : State) (p : Port) : (if s.toneDue p then [Instr.toneExpiry p] else [])
    = match (s.port p).tone with
      | some u => if (u.pattern = .chirp ∧ 40 ≤ u.age) ∨ (u.pattern ≠ .chirp ∧ u.duration ≠ 0 ∧ 100 * u.duration ≤ u.age)
          then [.toneExpiry p] else []
      | none => [] := by
  rw [State.toneDue_eq]
  cases (s.port p).tone with
  | none => rfl
  | some u => simp only [decide_eq_true_eq]

/-- With no slice in flight the removals of every CLOSING port are due (R117). -/
theorem State.tearingDown_instr {s : State} (h : s.slice = none) (p : Port) :
    (if s.tearingDown p then [Instr.teardownRemoval p] else []) = if (s.port p).state = .closing then [.teardownRemoval p] else [] := by
  simp [State.tearingDown_iff, h]

/-- What is due for a port while no slice is in flight (R108, R110, R112, R117, R162). -/
theorem State.duePort_eq {s : State} (h : s.slice = none) (p : Port) : s.duePort p =
    (if (s.port p).state = .live ∧ (s.port p).warned = false ∧ 2 * (s.port p).lease = (s.portProf p).leasePeriod
      then [Instr.leaseWarning p] else [])
      ++ (if (s.port p).state = .live ∧ (s.port p).lease = 0 then [.leaseExpiry p] else [])
      ++ (if (s.port p).state = .lapsed ∧ (s.port p).grace = 0 then [.graceExpiry p] else [])
      ++ (match (s.port p).tone with
          | some u => if (u.pattern = .chirp ∧ 40 ≤ u.age) ∨ (u.pattern ≠ .chirp ∧ u.duration ≠ 0 ∧ 100 * u.duration ≤ u.age)
              then [.toneExpiry p] else []
          | none => [])
      ++ (if (s.port p).state = .closing then [.teardownRemoval p] else []) := by
  simp only [State.duePort, State.toneDue_instr, State.tearingDown_instr h]

/-- The edge of a phase is due at every 200 ms of a pulsed request (R159). -/
theorem State.phaseDue_instr (s : State) : (if s.phaseDue then [Instr.tonePhaseChange] else [])
    = match s.sounding.bind (fun p => (s.port p).tone) with
      | some u => if u.pattern = .pulsed ∧ u.age % 200 = 0 then [.tonePhaseChange] else []
      | none => [] := by
  unfold State.phaseDue
  cases s.sounding.bind (fun p => (s.port p).tone) with
  | none => rfl
  | some u => simp only [Bool.and_eq_true, beq_iff_eq]

theorem frameDue_iff (n : Nat) : frameDue n = true ↔ n = 0 ∨ n = 16 ∨ n = 33 := by
  simp [frameDue, or_assoc]

/-- Settles O2: the third case is a millisecond, in which `advanceTime` moves the timers and `dueNow` fills the queue. -/
theorem emptyQueueGoesOnByItself : Obligations.EmptyQueueGoesOnByItself := by
  refine fun s hempty => ⟨fun hheld => ?_, fun p c hrun hhead => ?_, fun hrun hslice => ⟨s.tick, ?_, rfl, s.port_advanceTime,
    s.key_advanceTime, ⟨rfl, rfl, rfl, rfl, rfl, rfl⟩, ⟨rfl, rfl, rfl⟩, ⟨rfl, rfl, rfl, rfl⟩, rfl, rfl, rfl, rfl, rfl, rfl, rfl, rfl, rfl,
    rfl, rfl, rfl, rfl, rfl, fun hd => if_neg hd, fun hd => ?_⟩⟩
  · rw [step_empty hempty, State.idle_held hheld]
  · rw [step_empty hempty, State.idle_running hrun, State.sliceInstr_head hhead]
  · rw [step_empty hempty, State.idle_running hrun, State.sliceInstr_none hslice]
  · have hdue : s.advanceTime.duePort = _ := funext (State.duePort_eq (s := s.advanceTime) hslice)
    have hready : s.advanceTime.device = .ready := hd
    show s.advanceTime.dueNow = _
    rw [State.dueNow, if_pos hready, ← List.flatMap_def, ← List.flatMap_def, hdue, State.phaseDue_instr]
    simp only [frameDue_iff]
    rfl

end Sys2Proof.Machine
end

section
namespace Sys2Proof.Machine

-- One theorem is checked at a time, for the memory limit.
set_option Elab.async false

/-! What a port may hold in each port state, kept by every step: most operations are calm, in that they leave the port states alone
and leave every port settled that was; the rest move a port from one state to another. -/

/-! ## What a port holds by its state (R103, R107, R112, R116, R118) -/

/-- The port has no record, no lost count, no warning and no waiter. -/
def PortRec.Silent (q : PortRec) : Prop := q.events = [] ∧ q.lost = 0 ∧ q.warned = false ∧ q.waiter = false

/-- The port asks for no brightness and no tone. -/
def PortRec.AsksNothing (q : PortRec) : Prop := q.brightness = none ∧ q.tone = none

/-- The record `r` may stand for port `p` beside the slice and the windows of `s`. While the port is `busy`, in the middle of its
slice or of its entry to CLOSING, its requests, commands and grants may still stand in any port state. -/
structure State.SettledAt (s : State) (busy : Prop) (p : Port) (r : PortRec) : Prop where
  lease : r.state ≠ .live → r.lease = 0
  grace : r.state ≠ .lapsed → r.grace = 0
  silent : ¬ r.state.takesRecords → r.Silent
  asks : ¬ r.state.takesRecords → busy ∨ r.AsksNothing
  idle : ¬ r.state.takesRecords → busy ∨ s.slice = some p ∨ (r.queue = [] ∧ ∀ w ∈ s.windows, p ∉ w.grants)
  gone : ¬ r.state.engaged → r.bank = Vector.replicate 64 blankPattern ∧ ∀ w ∈ s.windows, w.owner ≠ p

/-- Every port holds what it may; the port `x` may be busy. -/
abbrev State.Settled (x : Option Port) (s : State) : Prop := ∀ p, s.SettledAt (x = some p) p (s.port p)

theorem State.sessionsAgree_iff (s : State) : s.SessionsAgree ↔ s.Quiet ∧ s.Settled none := by
  constructor
  · rintro ⟨hquiet, hslice, hlease, hgrace, hended, hnoticed, hgone⟩
    refine ⟨⟨hquiet, hslice⟩, fun p => ⟨hlease p, hgrace p, fun h => ?_, fun h => ?_, fun h => .inr ?_, hgone p⟩⟩
    · obtain ⟨hevents, hlost, hwarned, -, -, hwaiter⟩ := hended p h
      exact ⟨hevents, hlost, hwarned, hwaiter⟩
    · obtain ⟨-, -, -, hbrightness, htone, -⟩ := hended p h
      exact .inr ⟨hbrightness, htone⟩
    · exact Decidable.or_iff_not_imp_left.2 (hnoticed p h)
  · rintro ⟨⟨hquiet, hslice⟩, hs⟩
    refine ⟨hquiet, hslice, fun p => (hs p).lease, fun p => (hs p).grace, fun p h => ?_, fun p h hne => ?_, fun p => (hs p).gone⟩
    · obtain ⟨hevents, hlost, hwarned, hwaiter⟩ := (hs p).silent h
      obtain ⟨hbrightness, htone⟩ := ((hs p).asks h).resolve_left nofun
      exact ⟨hevents, hlost, hwarned, hbrightness, htone, hwaiter⟩
    · exact (((hs p).idle h).resolve_left nofun).resolve_left hne

section Settling

variable {x : Option Port} {s t u : State} {p : Port} {r : PortRec} {b : Prop}

theorem PortState.engaged_of_takesRecords {st : PortState} (h : st.takesRecords = true) : st.engaged :=
  ((PortState.takesRecords_iff st).1 h).elim .inl (.inr ∘ .inl)

/-- A port with a session that is not closing takes records. -/
theorem PortState.takesRecords_of_engaged {st : PortState} (h : st.engaged) (hc : st ≠ .closing) : st.takesRecords = true :=
  (PortState.takesRecords_iff st).2 (h.imp_right fun h => h.resolve_right hc)

/-- A port that takes records is settled by its timers alone. -/
theorem State.SettledAt.of_awake (h : r.state.takesRecords = true) (hl : r.state ≠ .live → r.lease = 0)
    (hg : r.state ≠ .lapsed → r.grace = 0) : s.SettledAt b p r :=
  ⟨hl, hg, (absurd h ·), (absurd h ·), (absurd h ·), (absurd (PortState.engaged_of_takesRecords h) ·)⟩

theorem State.SettledAt.mono {b' : Prop} (h : s.SettledAt b p r) (hb : b → b') : s.SettledAt b' p r :=
  ⟨h.lease, h.grace, h.silent, fun hr => (h.asks hr).imp_left hb, fun hr => (h.idle hr).imp_left hb, h.gone⟩

/-- The windows matter by whom they are granted to and whose they are. -/
theorem State.SettledAt.of_windows (h : s.SettledAt b p r) (hl : s.slice = some p → t.slice = some p)
    (hg : ¬ r.state.takesRecords → (∀ w ∈ s.windows, p ∉ w.grants) → ∀ w ∈ t.windows, p ∉ w.grants)
    (ho : ¬ r.state.engaged → (∀ w ∈ s.windows, w.owner ≠ p) → ∀ w ∈ t.windows, w.owner ≠ p) : t.SettledAt b p r :=
  ⟨h.lease, h.grace, h.silent, h.asks, fun hr => (h.idle hr).imp_right fun h => h.imp hl fun h => ⟨h.1, hg hr h.2⟩,
    fun hr => ⟨(h.gone hr).1, ho hr (h.gone hr).2⟩⟩

theorem State.SettledAt.congr (h : s.SettledAt b p r) (hw : t.windows = s.windows) (hl : t.slice = s.slice) : t.SettledAt b p r :=
  h.of_windows (hl ▸ id) (fun _ => hw ▸ id) (fun _ => hw ▸ id)

/-- A busy port that is settled without being busy is busy no longer. -/
theorem State.Settled.rest (hs : s.Settled (some p)) (h : s.SettledAt False p (s.port p)) : s.Settled none := by
  intro q
  by_cases hq : p = q
  · exact hq ▸ h.mono False.elim
  · exact (hs q).mono fun e => absurd (Option.some.inj e) hq

/-- Writing what one port holds leaves every other port settled. -/
theorem State.Settled.setPort (hs : s.Settled x) (hr : s.SettledAt (x = some p) p r) : (s.setPort p r).Settled x := by
  intro q
  rw [State.port_setPort]
  split
  · rename_i hq
    subst hq
    exact hr.congr rfl rfl
  · exact (hs q).congr rfl rfl

/-! ## Calm changes -/

/-- `t` follows `s` with every port in its state, the slice in flight still in flight, and every port settled that was. -/
structure Calms (x : Option Port) (s t : State) : Prop where
  state : ∀ p, (t.port p).state = (s.port p).state
  slice : ∀ p, s.slice = some p → t.slice = some p
  settled : ∀ p, s.SettledAt (x = some p) p (s.port p) → t.SettledAt (x = some p) p (t.port p)

theorem Calms.refl (s : State) : Calms x s s := ⟨fun _ => rfl, fun _ => id, fun _ => id⟩

theorem Calms.trans (h : Calms x s t) (h' : Calms x t u) : Calms x s u :=
  ⟨fun p => (h'.state p).trans (h.state p), fun p => h'.slice p ∘ h.slice p, fun p => h'.settled p ∘ h.settled p⟩

theorem State.Settled.calms (hs : s.Settled x) (h : Calms x s t) : t.Settled x := fun p => h.settled p (hs p)

/-- Windows change, or none do: each owner has a session or owned a window before, and each grant is to a port that takes records or
stood before. -/
theorem Calms.of_windows (hw : ∀ y ∈ t.windows, ((s.port y.owner).state.engaged ∨ ∃ w ∈ s.windows, w.owner = y.owner)
      ∧ ∀ g ∈ y.grants, (s.port g).state.takesRecords = true ∨ ∃ w ∈ s.windows, g ∈ w.grants)
    (hp : t.ports = s.ports := by rfl) (hl : t.slice = s.slice := by rfl) : Calms x s t := by
  have hport (p : Port) : t.port p = s.port p := by rw [State.port, hp, State.ports_get]
  refine ⟨fun p => by rw [hport], fun p => hl ▸ id, fun p h => ?_⟩
  rw [hport]
  refine h.of_windows (hl ▸ id) (fun hr hg y hy hmem => ?_) (fun hr ho y hy he => ?_)
  · rcases (hw y hy).2 p hmem with htakes | ⟨w, hws, hgrant⟩
    · exact hr htakes
    · exact hg w hws hgrant
  · rcases (hw y hy).1 with heng | ⟨w, hws, howner⟩
    · exact hr (he ▸ heng)
    · exact ho w hws (howner.trans he)

/-- A change of fields that the ports, the windows and the slice in flight do not show in. -/
theorem Calms.of_rest (hw : t.windows = s.windows := by rfl) (hp : t.ports = s.ports := by rfl) (hl : t.slice = s.slice := by rfl) :
    Calms x s t :=
  .of_windows (fun y hy => ⟨.inr ⟨y, hw ▸ hy, rfl⟩, fun _ hg => .inr ⟨y, hw ▸ hy, hg⟩⟩) hp hl

/-- Every window stays its owner's, with no new grant. -/
theorem Calms.of_kept {ws : List Window} (hw : ∀ y ∈ ws, ∃ w ∈ s.windows, w.owner = y.owner ∧ ∀ g ∈ y.grants, g ∈ w.grants) :
    Calms x s { s with windows := ws } := by
  refine .of_windows fun y hy => ?_
  obtain ⟨w, hws, howner, hgrants⟩ := hw y hy
  exact ⟨.inr ⟨w, hws, howner⟩, fun g hg => .inr ⟨w, hws, hgrants g hg⟩⟩

/-- What a port holds changes to something that it may hold as well. -/
theorem Calms.of_settled (s : State) (p : Port) (r : PortRec) (hs : r.state = (s.port p).state)
    (hr : s.SettledAt (x = some p) p (s.port p) → s.SettledAt (x = some p) p r) : Calms x s (s.setPort p r) := by
  refine ⟨fun q => ?_, fun _ => id, fun q h => ?_⟩
  · rw [State.port_setPort]
    split
    · rename_i hq
      rw [hs, hq]
    · rfl
  · rw [State.port_setPort]
    split
    · rename_i hq
      subst hq
      exact (hr h).congr rfl rfl
    · exact h.congr rfl rfl

/-- A change of what a port holds other than what its port state decides. -/
theorem Calms.of_port (s : State) (p : Port) (r : PortRec) (hs : r.state = (s.port p).state := by rfl)
    (hr : s.SettledAt (x = some p) p (s.port p) → s.SettledAt (x = some p) p r := by
      exact fun h => ⟨h.lease, h.grace, h.silent, h.asks, h.idle, h.gone⟩) : Calms x s (s.setPort p r) :=
  .of_settled s p r hs hr

/-- A change of what a port holds that takes records, other than its timers. -/
theorem Calms.of_awake (s : State) (p : Port) (r : PortRec) (h : (s.port p).state.takesRecords = true)
    (hs : r.state = (s.port p).state := by rfl) (hl : r.lease = (s.port p).lease := by rfl)
    (hg : r.grace = (s.port p).grace := by rfl) : Calms x s (s.setPort p r) :=
  .of_settled s p r hs fun hr => .of_awake (hs ▸ h) (fun hne => hl.trans (hr.lease (hs ▸ hne))) fun hne => hg.trans (hr.grace (hs ▸ hne))

theorem Calms.foldl {α : Type} (l : List α) (f : State → α → State) (hf : ∀ (s : State) a, Calms x s (f s a)) (s : State) :
    Calms x s (l.foldl f s) := by
  induction l generalizing s with
  | nil => exact .refl s
  | cons a l ih => exact (hf s a).trans (ih _)

theorem Calms.ite (c : Prop) [Decidable c] (h : c → Calms x s t) : Calms x s (if c then t else s) := by
  split
  · exact h ‹_›
  · exact .refl s

/-! ## Records, replies and exposure -/

/-- A record joins where the port takes records, and is dropped elsewhere (R125). -/
theorem Calms.post (s : State) (p : Port) (body : EventBody) (h : Option Handle) : Calms x s (s.post p body h) := by
  cases htakes : (s.port p).state.takesRecords with
  | false =>
    rw [State.post_dropped htakes]
    exact .refl s
  | true =>
    have hjoin := (s.port p).join_only ⟨body, s.timeBase, h, false⟩
    rw [State.post_eq, if_pos htakes]
    exact .of_awake s p _ htakes (by rw [hjoin]) (by rw [hjoin]) (by rw [hjoin])

/-- Records that stand in a queue are changed one by one, so an empty queue stays empty. -/
theorem Calms.of_records (s : State) (p : Port) (r : PortRec) (he : (s.port p).events = [] → r.events = [])
    (hr : r = { s.port p with events := r.events, reply := r.reply, transfer := r.transfer, dataOut := r.dataOut }) :
    Calms x s (s.setPort p r) := by
  refine .of_settled s p r (by rw [hr]) fun h => ?_
  rw [hr]
  refine ⟨h.lease, h.grace, fun ht => ?_, h.asks, h.idle, h.gone⟩
  obtain ⟨hevents, hlost, hwarned, hwaiter⟩ := h.silent ht
  exact ⟨he hevents, hlost, hwarned, hwaiter⟩

theorem Calms.placeReply (s : State) (p : Port) (r : Reply) : Calms x s (s.placeReply p r) :=
  .of_records s p _ (fun h => by simp [PortRec.place, h]) rfl

theorem Calms.nak (s : State) (p : Port) (tag : Byte) (reason : NakReason) : Calms x s (s.nak p tag reason) := .placeReply s p _

theorem Calms.ack (s : State) (p : Port) (tag : Byte) (body : ReplyBody) : Calms x s (s.ack p tag body) := .placeReply s p _

theorem Calms.recomputeExposure (s : State) : Calms x s s.recomputeExposure := by
  refine Calms.trans (t := { s with windows := s.exposeFrom [] s.windows }) (.of_kept fun y hy => ?_)
    (.foldl _ _ (fun s w => .post s _ _ _) _)
  obtain ⟨w, hw, hbare⟩ := List.mem_map.1 (s.exposeFrom_bare [] s.windows ▸ List.mem_map_of_mem (f := Window.bare) hy)
  have howner : w.bare.owner = y.bare.owner := congrArg Window.owner hbare
  have hgrants : w.bare.grants = y.bare.grants := congrArg Window.grants hbare
  exact ⟨w, hw, howner, fun g hg => (hgrants ▸ hg : g ∈ w.bare.grants)⟩

/-! ## Focus, capture and tones -/

theorem Calms.withdrawFocus (s : State) (h : Handle) (owner : Port) (reason : FocusReason) :
    Calms x s (s.withdrawFocus h owner reason) :=
  .ite _ fun _ => .trans .of_rest (.post _ _ _ _)

theorem Calms.moveFocus (s : State) (w : Window) : Calms x s (s.moveFocus w) := by
  unfold State.moveFocus
  cases s.focusWindow with
  | none => exact .trans .of_rest (.post _ _ _ _)
  | some f => exact .trans (.post s f.owner (.focusLost .moved) (some f.handle)) (.trans .of_rest (.post _ _ _ _))

theorem Calms.cancelRemoved (s : State) (h : Handle) (owner : Port) : Calms x s (s.cancelRemoved h owner) := by
  unfold State.cancelRemoved
  split
  · exact .ite _ fun _ => .trans .of_rest (.post _ _ _ _)
  · exact .refl s

theorem Calms.cancelLapsed (s : State) (p : Port) : Calms x s (s.cancelLapsed p) := by
  unfold State.cancelLapsed
  split
  · exact .ite _ fun _ => .trans .of_rest (.post _ _ _ _)
  · exact .refl s

theorem Calms.lapseFocus (s : State) (p : Port) : Calms x s (s.lapseFocus p) := by
  unfold State.lapseFocus
  split
  · exact .refl s
  · exact .ite _ fun _ => .withdrawFocus s _ p _

theorem Calms.releaseFocus (s : State) (p : Port) : Calms x s (s.releaseFocus p) := by
  unfold State.releaseFocus
  split
  · exact .refl s
  · exact .ite _ fun _ => .withdrawFocus s _ p _

theorem Calms.chooseTone (s : State) : Calms x s s.chooseTone := .of_rest

/-- The end of a request leaves a port with less than it may hold. -/
theorem Calms.endTone (s : State) (p : Port) (reason : ToneReason) : Calms x s (s.endTone p reason) := by
  have hset : Calms x s (s.setPort p { s.port p with tone := none }) :=
    .of_port s p _ rfl fun h => ⟨h.lease, h.grace, h.silent, fun ht => (h.asks ht).imp_right fun h => ⟨h.1, rfl⟩, h.idle, h.gone⟩
  unfold State.endTone
  split
  · exact .refl s
  · simp only
    split
    · exact (hset.trans (.post _ p _ _)).trans (.chooseTone _)
    · exact hset.trans (.chooseTone _)

theorem Calms.endToneIf (s : State) (p : Port) (bands : Band → Bool) (reason : ToneReason) :
    Calms x s (s.endToneIf p bands reason) := by
  unfold State.endToneIf
  split
  · exact .refl s
  · exact .ite _ fun _ => .endTone s p reason

theorem Calms.silence (s : State) : Calms x s s.silence := .foldl _ _ (fun s p => .endToneIf s p _ _) s

/-- A busy port's request may start in any port state. -/
theorem Calms.startTone (s : State) (p : Port) (o : ToneOperands) : Calms (some p) s (s.startTone p o) := by
  have hbegin (u : State) : Calms (some p) u (u.beginTone p o) :=
    Calms.trans (t := u.setPort p { u.port p with tone := some (newTone o u.toneSeq) })
      (.of_port u p _ rfl fun h => ⟨h.lease, h.grace, h.silent, fun _ => .inl rfl, h.idle, h.gone⟩) .of_rest
  have hstart : Calms (some p) s ((s.endTone p .replaced).beginTone p o) := (Calms.endTone s p _).trans (hbegin _)
  unfold State.startTone
  simp only
  split
  · exact hstart.trans (.endTone _ p _)
  · exact hstart

/-! ## The engine and the frame -/

theorem Calms.arbitrate (s : State) : Calms x s s.arbitrate := by
  have hport (p : Port) : s.arbitrate.port p = s.port p := by
    rw [s.arbitrate_frame]
    rfl
  have hslice (p : Port) (h : s.slice = some p) : s.arbitrate.slice = some p := by
    rcases s.arbitrate_cases with he | ⟨hnone, -⟩
    · rw [he, h]
    · rw [hnone] at h
      cases h
  refine ⟨fun p => by rw [hport], hslice, fun p h => ?_⟩
  rw [hport]
  refine h.of_windows (hslice p) (fun _ => ?_) fun _ => ?_ <;> rw [s.arbitrate_frame] <;> exact id

/-- A command leaves the queue. -/
theorem Calms.popHead (s : State) (p : Port) (st : Status) : Calms x s (s.setPort p ((s.port p).popHead st)) := by
  refine .of_port s p _ rfl fun h => ⟨h.lease, h.grace, fun ht => ?_, h.asks, fun ht => ?_, h.gone⟩
  · obtain ⟨hevents, hlost, hwarned, -⟩ := h.silent ht
    exact ⟨hevents, hlost, hwarned, rfl⟩
  · exact (h.idle ht).imp_right fun h => h.imp_right fun h => ⟨by simp [PortRec.popHead, h.1], h.2⟩

theorem Calms.endCommand (s : State) (p : Port) (c : QCmd) (st : Status) (res : ResultPart) (cells : Nat) :
    Calms x s (s.endCommand p c st res cells) := by
  unfold State.endCommand
  split
  · exact .popHead s p st
  · exact (Calms.popHead s p st).trans (.post _ p _ _)

theorem Calms.completeMark (s : State) (p : Port) : Calms x s (s.completeMark p) := by
  refine .ite _ fun _ => ?_
  split
  · exact .refl s
  · exact .endCommand s p _ _ _ _

theorem Calms.frameStart (s : State) : Calms x s s.frameStart := by
  have hlatched : Calms x s s.frameLatched := .of_rest
  rw [s.frameStart_eq]
  exact (hlatched.trans (.foldl _ _ .completeMark _)).trans (.arbitrate _)

/-- A queue that is cut to its head or discarded holds no command where it held none. -/
theorem Calms.cutQueue (s : State) (p : Port) (r : PortRec) (hq : (s.port p).queue = [] → r.queue = [])
    (hw : (s.port p).waiter = false → r.waiter = false)
    (hr : r = { s.port p with queue := r.queue, progress := r.progress, stopMark := r.stopMark, waiter := r.waiter }) :
    Calms x s (s.setPort p r) := by
  refine .of_settled s p r (by rw [hr]) fun h => ?_
  rw [hr]
  refine ⟨h.lease, h.grace, fun ht => ?_, h.asks, fun ht => ?_, h.gone⟩
  · obtain ⟨hevents, hlost, hwarned, hwaiter⟩ := h.silent ht
    exact ⟨hevents, hlost, hwarned, hw hwaiter⟩
  · exact (h.idle ht).imp_right fun h => h.imp_right fun h => ⟨hq h.1, h.2⟩

theorem Calms.discardQueue (s : State) (p : Port) : Calms x s (s.setPort p (s.port p).discardQueue) :=
  .cutQueue s p _ (fun _ => rfl) (fun _ => rfl) rfl

theorem Calms.abortQueue (s : State) (p : Port) : Calms x s (s.abortQueue p) := by
  have honly (stop : Bool) : Calms x s (s.setPort p { (s.port p).onlyHead with stopMark := stop }) :=
    .cutQueue s p _ (fun h => by simp [PortRec.onlyHead, h]) id rfl
  have hend : Calms x s (match (s.port p).queue with
      | [] => s
      | c :: _ => (s.setPort p (s.port p).onlyHead).endCommand p c .aborted .none (s.port p).progress.cellsDone) := by
    split
    · exact .refl s
    · exact (honly (s.port p).stopMark).trans (.endCommand _ p _ _ _ _)
  unfold State.abortQueue
  split
  · exact .refl s
  · exact .discardQueue s p
  · exact honly true
  · exact hend
  · exact hend

/-! ## Changes of a port's state -/

/-- A port that takes records may take any timers that its state allows. -/
theorem State.Settled.setPort_awake (hs : s.Settled x) (h : r.state.takesRecords = true) (hl : r.state ≠ .live → r.lease = 0)
    (hg : r.state ≠ .lapsed → r.grace = 0) : (s.setPort p r).Settled x :=
  hs.setPort (.of_awake h hl hg)

/-- A teardown completes with no window left, and then the port holds nothing (R5, R118). -/
theorem State.Settled.completeTeardown (hs : s.Settled none) (hc : (s.port p).state = .closing) :
    (s.completeTeardown p).Settled none := by
  rcases s.completeTeardown_cases p with ⟨-, h⟩ | ⟨hnone, h⟩ <;> rw [h]
  · exact hs
  · have hp := hs p
    have hquiet : ¬ (s.port p).state.takesRecords := by rw [hc]; decide
    refine hs.setPort ⟨fun _ => hp.lease (by rw [hc]; decide), fun _ => hp.grace (by rw [hc]; decide), fun _ => hp.silent hquiet,
      fun _ => hp.asks hquiet, fun _ => hp.idle hquiet, fun _ => ⟨rfl, fun w hw => ?_⟩⟩
    simpa using List.find?_eq_none.1 hnone w hw

/-- A port leaves the grants of every window. -/
theorem Calms.ungrant (s : State) (p : Port) : Calms x s { s with windows := s.windows.map (Window.ungrant p) } := by
  refine .of_kept fun y hy => ?_
  obtain ⟨w, hw, rfl⟩ := List.mem_map.1 hy
  exact ⟨w, hw, rfl, fun g hg => (List.mem_filter.1 hg).1⟩

theorem not_mem_ungrant (p : Port) (w : Window) : p ∉ (Window.ungrant p w).grants := by
  simp [Window.ungrant]

/-- The teardown notice to a CLOSING port that asks for nothing and holds no command: it is busy no longer (R42, R61, R117). -/
theorem State.Settled.teardownNotice (hs : s.Settled (some p)) (hc : (s.port p).state = .closing)
    (ha : (s.port p).AsksNothing) (hq : (s.port p).queue = []) : (s.teardownNotice p).Settled none := by
  have hungrant := hs.calms (Calms.ungrant s p)
  have hp := hungrant p
  refine State.Settled.completeTeardown (hungrant.rest ⟨hp.lease, hp.grace, hp.silent, fun _ => .inr ha,
    fun _ => .inr (.inr ⟨hq, fun y hy => ?_⟩), hp.gone⟩) hc
  obtain ⟨w, -, rfl⟩ := List.mem_map.1 hy
  exact not_mem_ungrant p w

/-- An entry to CLOSING leaves the port with what a CLOSING or DETACHED port holds, and the others settled (R116, R118). -/
theorem State.Settled.enterClosing (hs : s.Settled none) (p : Port) : (s.enterClosing p).Settled none := by
  have h := s.enterClosing_closes p
  obtain ⟨hslice, -⟩ := h.arbiter
  have hwindows (y : Window) (hy : y ∈ (s.enterClosing p).windows) : ∃ w ∈ (s.closingExposure p).windows,
      w.owner = y.owner ∧ (∀ g ∈ y.grants, g ∈ w.grants) ∧ (s.slice ≠ some p → p ∉ y.grants) := by
    rw [h.windows] at hy
    obtain ⟨w, hw, rfl⟩ := List.mem_map.1 hy
    refine ⟨w, hw, ?_⟩
    split
    · exact ⟨rfl, fun _ => id, fun hne => absurd ‹_› hne⟩
    · exact ⟨rfl, fun g hg => (List.mem_filter.1 hg).1, fun _ => not_mem_ungrant p w⟩
  intro q
  by_cases hq : q = p
  · subst hq
    obtain ⟨hlease, hgrace, hwarned, -⟩ := h.timers
    obtain ⟨-, hevents, hlost⟩ := h.queues
    obtain ⟨hbrightness, hwaiter, htone⟩ := h.requests
    refine ⟨fun _ => hlease, fun _ => hgrace, fun _ => ⟨hevents, hlost, hwarned, hwaiter⟩, fun _ => .inr ⟨hbrightness, htone⟩,
      fun _ => .inr ?_, fun hgone => ?_⟩
    · rw [hslice, h.commands]
      by_cases hflight : s.slice = some q
      · exact .inl hflight
      · refine .inr ⟨if_neg hflight, fun y hy => ?_⟩
        obtain ⟨-, -, -, -, hgrants⟩ := hwindows y hy
        exact hgrants hflight
    · have hnone : ¬ (s.slice = some q ∨ s.ownsWindow q) := fun hor => hgone (.inr (.inr (h.state.trans (if_pos hor))))
      refine ⟨h.bank.trans (if_neg hnone), fun y hy hown => hnone (.inr ?_)⟩
      obtain ⟨w, hw, howner, -⟩ := hwindows y hy
      have hmem : q ∈ s.windows.map (fun w => w.owner) :=
        s.owners_closingExposure q ▸ List.mem_map.2 ⟨w, hw, howner.trans hown⟩
      exact List.mem_map.1 hmem
  · have hexposed : (s.closingExposure p).SettledAt (none = some q) q ((s.closingExposure p).port q) := by
      unfold State.closingExposure
      split
      · refine (Calms.recomputeExposure (x := none) _).settled q ?_
        rw [State.port_setPort_ne _ _ hq]
        exact (hs q).congr rfl rfl
      · exact hs q
    have hsame : (s.closingExposure p).slice = s.slice := by
      unfold State.closingExposure
      split
      · exact State.recomputeExposure_slice _
      · rfl
    rw [h.others q hq]
    refine hexposed.of_windows (by rw [hslice, hsame]; exact id) (fun _ hg y hy hmem => ?_) fun _ ho y hy hown => ?_
    · obtain ⟨w, hw, -, hgrants, -⟩ := hwindows y hy
      exact hg w hw (hgrants q hmem)
    · obtain ⟨w, hw, howner, -⟩ := hwindows y hy
      exact ho w hw (howner.trans hown)

/-- A lapse: the port goes on taking records, with its grace running (R111). -/
theorem State.Settled.lapse (hs : s.Settled none) (p : Port) : (s.lapse p).Settled none := by
  have hset : (s.setPort p ((s.port p).lapse (s.portProf p).gracePeriod)).Settled none :=
    hs.setPort_awake rfl (fun _ => rfl) fun h => absurd rfl h
  exact hset.calms (((((Calms.post _ p _ _).trans (.lapseFocus _ p)).trans (.cancelLapsed _ p)).trans (.endToneIf _ p _ _)).trans
    (.recomputeExposure _))

/-! ## Removals and slices -/

theorem State.mem_takeOut {h : Handle} {ws : List Window} {w : Window} (hw : w ∈ takeOut h ws) : w ∈ ws :=
  (takeOut_sublist h ws).subset hw

theorem Calms.removeWindow (s : State) (w : Window) : Calms x s (s.removeWindow w) := by
  have hout : Calms x s (s.removed w s.focus s.capture) := by
    refine Calms.trans (t := { s with windows := takeOut w.handle s.windows }) (.of_kept fun y hy => ?_)
      (.trans .of_rest (.of_port _ w.owner _))
    exact ⟨y, State.mem_takeOut hy, rfl, fun _ => id⟩
  exact ((hout.trans (.withdrawFocus _ w.handle w.owner .removed)).trans (.cancelRemoved _ w.handle w.owner)).trans (.recomputeExposure _)

theorem State.Settled.teardownStep (hs : s.Settled none) (h : s.tearingDown p = true) : (s.teardownStep p).Settled none := by
  obtain ⟨hc, -⟩ := (s.tearingDown_iff p).1 h
  unfold State.teardownStep
  split
  · exact hs
  · rename_i w _
    have hw : Calms none s (s.removeWindow w) := .removeWindow s w
    exact (hs.calms hw).completeTeardown ((hw.state p).trans hc)

theorem State.Settled.takeWaitingRemoval (hs : s.Settled none) : s.takeWaitingRemoval.Settled none := by
  have hclear : State.Settled none { s with waitingRemoval := none } := hs.calms .of_rest
  rcases s.takeWaitingRemoval_cases with ⟨-, h⟩ | ⟨p, -, h⟩ <;> rw [h]
  · exact hs
  · split
    · exact hclear.teardownStep ‹_›
    · exact hclear

/-- The end of a slice, once the engine has given it up: a CLOSING port gives up what the slice left it, and any other goes on
(R55, R61). -/
theorem State.Settled.given (hs : s.Settled (some p)) (he : (s.port p).state.engaged) (c : QCmd) (e : SliceEnd) :
    (e.given p c s).Settled none := by
  unfold SliceEnd.given
  split
  · rename_i hc
    obtain ⟨hevents, hlost, hwarned, -⟩ := (hs p).silent (by rw [hc]; decide)
    have hclear : Calms (some p) s (s.setPort p { (s.port p).discardQueue with brightness := none, tone := none }) :=
      .of_port s p _ rfl fun h => ⟨h.lease, h.grace, fun _ => ⟨hevents, hlost, hwarned, rfl⟩, fun _ => .inl rfl, fun _ => .inl rfl,
        h.gone⟩
    refine State.Settled.teardownNotice (s := (s.setPort p _).chooseTone) (hs.calms (hclear.trans (.chooseTone _))) ?_ ?_ ?_
    · exact (hclear.state p).trans hc
    · exact (congrArg PortRec.AsksNothing (s.port_setPort_self p _)).mpr ⟨rfl, rfl⟩
    · exact congrArg PortRec.queue (s.port_setPort_self p _)
  · rename_i hc
    have htakes := PortState.takesRecords_of_engaged he hc
    have hrest : s.Settled none := hs.rest (.of_awake htakes (hs p).lease (hs p).grace)
    split
    · exact hrest.calms (.endCommand s p c _ _ _)
    · split
      · exact hrest.calms (.endCommand s p c _ _ _)
      · exact hrest.calms (.of_awake s p _ htakes)
      · exact hrest.calms (.of_awake s p _ htakes)

theorem State.Settled.finishSlice (hs : s.Settled none) (hl : s.slice = some p) (he : (s.port p).state.engaged) (c : QCmd)
    {e : SliceEnd} (h : Calms (some p) s e.state) : (Machine.finishSlice p c e).Settled none := by
  have hbusy : e.state.Settled (some p) := State.Settled.calms (fun q => (hs q).mono nofun) h
  have hfree : State.Settled (some p) { e.state with slice := none } := by
    intro q
    by_cases hq : p = q
    · have hq' : (some p = some q) = True := eq_true (congrArg some hq)
      have hport := hbusy q
      exact ⟨hport.lease, hport.grace, hport.silent, hport.asks, fun _ => .inl (hq'.mpr trivial), hport.gone⟩
    · exact (hbusy q).of_windows (fun hslice => absurd (Option.some.inj ((h.slice p hl).symm.trans hslice)) hq) (fun _ => id) fun _ => id
  rw [finishSlice_eq]
  refine ((hfree.given ?_ c e).calms (.arbitrate _)).takeWaitingRemoval
  have hstate : (e.state.port p).state = (s.port p).state := h.state p
  exact hstate ▸ he

theorem State.Settled.runSlice {k : CommandKind} {work : QCmd → State → SliceEnd} (hs : s.Settled none) (he : s.SliceEngaged)
    (h : ∀ c, (s.port p).state.engaged → Calms (some p) s (work c s).state) : (s.runSlice p k work).Settled none := by
  rcases s.runSlice_cases p k work with hr | ⟨c, ⟨hl, -⟩, -, hr⟩ <;> rw [hr]
  · exact hs
  · refine hs.finishSlice hl (he p hl) c ?_
    split
    · exact .refl s
    · exact h c (he p hl)

theorem Calms.of_oneSlice {e : Effect} (h : ∀ s' res, e = .ok (s', res) → Calms x s s') : Calms x s (oneSlice s e).state := by
  cases e with
  | error st => exact .refl s
  | ok r => exact h _ _ rfl

/-- The slice of a command that names its port's own window has its effect on a window of the table. -/
theorem Calms.of_ownWindow {c : QCmd} {i n : Nat} {effect : Window → Effect}
    (h : ∀ w ∈ s.windows, ∀ s' res, effect w = .ok (s', res) → Calms x s s') :
    Calms x s (oneSlice s (ownWindowAt s p c i n effect)).state :=
  .of_oneSlice fun s' res he => by
    obtain ⟨w, hw, -, he⟩ := ownWindowAt_ok he
    exact h w hw s' res he

theorem Calms.of_ownDrawing {c : QCmd} {work : Progress → Window → SliceEnd} (h : ∀ pr w, Calms x s (work pr w).state) :
    Calms x s (ownDrawing s p c work).state := by
  unfold ownDrawing
  simp only
  split
  · exact .refl s
  · exact h _ _

/-! ## The window commands -/

/-- A window changed in place, its owner's still, with no new grant but to ports that take records. -/
theorem Calms.updateWindow (s : State) (h : Handle) (g : Window → Window) (ho : ∀ w, (g w).owner = w.owner)
    (hg : ∀ w, ∀ q ∈ (g w).grants, q ∈ w.grants ∨ (s.port q).state.takesRecords = true) : Calms x s (s.updateWindow h g) := by
  refine .of_windows fun y hy => ?_
  obtain ⟨w, hw, rfl⟩ := List.mem_map.1 hy
  split
  · exact ⟨.inr ⟨w, hw, (ho w).symm⟩, fun q hq => ((hg w q hq).imp_left fun h => ⟨w, hw, h⟩).symm⟩
  · exact ⟨.inr ⟨w, hw, rfl⟩, fun q hq => .inr ⟨w, hw, hq⟩⟩

/-- A window changed in place in fields other than its owner and its grants. -/
theorem Calms.updateFields (s : State) (h : Handle) (g : Window → Window) (ho : ∀ w, (g w).owner = w.owner := by exact fun _ => rfl)
    (hg : ∀ w, (g w).grants = w.grants := by exact fun _ => rfl) : Calms x s (s.updateWindow h g) :=
  .updateWindow s h g ho fun w _ hq => .inl (hg w ▸ hq)

/-- A window of the table taken out and put back, its owner's still, with its grants. -/
theorem Calms.restack {w y : Window} (hw : w ∈ s.windows) (ho : y.owner = w.owner) (hg : y.grants = w.grants) {l : List Window}
    (hl : l.Perm (y :: takeOut w.handle s.windows)) : Calms x s { s with windows := l } := by
  refine .of_kept fun z hz => ?_
  rcases List.mem_cons.1 (hl.mem_iff.1 hz) with rfl | hz
  · exact ⟨w, hw, ho.symm, fun g hq => hg ▸ hq⟩
  · exact ⟨z, State.mem_takeOut hz, rfl, fun _ => id⟩

/-- The new window is a port's with a session or a teardown, and no port has a grant to it (R28). -/
theorem Calms.createWindow {c : QCmd} {s' : State} {res : ResultPart} (he : (s.port p).state.engaged)
    (h : s.createWindow p c = .ok (s', res)) : Calms x s s' := by
  rcases s.createWindow_cases p c with ⟨st, hr⟩ | ⟨o, slot, -, -, hr⟩ <;> rw [hr] at h <;> cases h
  have hmade : Calms x s { s with
      windows := insertTop (newWindow ⟨slot, s.generationOf slot⟩ p o (s.available.take (stripsOf o.sc o.sr))) s.windows } := by
    refine .of_windows fun y hy => ?_
    rcases List.mem_cons.1 ((insertTop_perm _ _).mem_iff.1 hy) with rfl | hy
    · exact ⟨.inl he, fun g hg => nomatch hg⟩
    · exact ⟨.inr ⟨y, hy, rfl⟩, fun g hg => .inr ⟨y, hy, hg⟩⟩
  have hheld : Calms x s (s.created p slot o) := hmade.trans (.trans .of_rest (.of_port _ p _))
  exact hheld.trans (.recomputeExposure _)

theorem Calms.placeWindow {s' : State} {c : QCmd} {w : Window} {res : ResultPart} (h : s.placeWindow c w = .ok (s', res)) :
    Calms x s s' := by
  unfold State.placeWindow at h
  simp only at h
  split at h <;> cases h
  exact (Calms.updateFields s _ _).trans (.recomputeExposure _)

theorem Calms.setBand {s' : State} {c : QCmd} {w : Window} {res : ResultPart} (hw : w ∈ s.windows)
    (h : s.setBand p c w = .ok (s', res)) : Calms x s s' := by
  unfold State.setBand at h
  split at h
  · cases h
  · rename_i b _
    split at h <;> cases h
    exact (Calms.restack (y := { w with band := b }) hw rfl rfl (insertTop_perm _ _)).trans (.recomputeExposure _)

theorem Calms.setModes (s : State) (w : Window) (o : ModeOperands) : Calms x s (s.setModes w o) := by
  have hset : Calms x s (s.updateWindow w.handle (fun w => w.withModes o)) := .updateFields s _ _
  unfold State.setModes
  simp only
  split <;> split
  · exact hset.trans (.recomputeExposure _)
  · exact (hset.trans (.withdrawFocus _ _ _ _)).trans (.recomputeExposure _)
  · exact hset
  · exact hset.trans (.withdrawFocus _ _ _ _)

/-- A grant goes to a port that takes records (R37). -/
theorem Calms.grantRead {s' : State} {c : QCmd} {w : Window} {res : ResultPart} (h : s.grantRead c w = .ok (s', res)) :
    Calms x s s' := by
  unfold State.grantRead at h
  split at h
  · cases h
  · rename_i g _
    split at h
    · cases h
    · split at h
      · cases h
      · rename_i htakes
        split at h <;> cases h
        · exact .refl s
        · refine .updateWindow s _ _ (fun _ => rfl) fun v q hq => ?_
          rcases List.mem_append.1 hq with hq | hq
          · exact .inl hq
          · rw [List.mem_singleton.1 hq]
            exact .inr (by simpa using htakes)

theorem Calms.requestFocus {s' : State} {w : Window} {res : ResultPart} (h : s.requestFocus w = .ok (s', res)) : Calms x s s' := by
  unfold State.requestFocus at h
  split at h
  · cases h
    exact .refl s
  · split at h <;> cases h
    exact .moveFocus s w

/-! ## Text and drawing -/

theorem Calms.writeText (s : State) (pr : Progress) (w : Window) (items : List TextItem) :
    Calms x s (s.writeText pr w items).state := by
  have hwrite (m : Memory) (g : Window → Window) (ho : ∀ w, (g w).owner = w.owner) (hg : ∀ w, (g w).grants = w.grants) :
      Calms x s ({ s with memory := m }.updateWindow w.handle g) :=
    Calms.trans (t := { s with memory := m }) .of_rest (.updateFields _ _ g ho hg)
  unfold State.writeText
  simp only
  split <;> exact hwrite _ _ (fun _ => rfl) fun _ => rfl

theorem Calms.rectSlice (s : State) (pr : Progress) (backward : Bool) (area : Nat) (write : Memory → Nat → Memory) :
    Calms x s (s.rectSlice pr backward area write).state := by
  unfold State.rectSlice
  simp only
  split <;> exact .of_rest

/-- The same after a check of its rectangle. -/
theorem Calms.rectSlice_ite (s : State) (pr : Progress) (backward : Bool) (area : Nat) (write : Memory → Nat → Memory) (fits : Bool)
    (st : Status) (cells : Nat) :
    Calms x s (if fits then s.rectSlice pr backward area write else .ended st .none cells s).state := by
  split
  · exact .rectSlice s pr backward area write
  · exact .refl s

theorem Calms.copyWork (s : State) (p : Port) (c : QCmd) : Calms x s (Machine.copyWork p c s).state := by
  unfold Machine.copyWork
  split
  · exact .refl s
  · split
    · exact .refl s
    · unfold State.copySlice
      exact .rectSlice s _ _ _ _

/-- A busy port's requests and patterns may change in any port state that has a session or a teardown (R85, R98). -/
theorem Calms.of_busy (s : State) (p : Port) (brightness : Option Nat) (bank : Vector Pattern 64) (he : (s.port p).state.engaged) :
    Calms (some p) s (s.setPort p { s.port p with brightness := brightness, bank := bank }) :=
  .of_port s p _ rfl fun h => ⟨h.lease, h.grace, h.silent, fun _ => .inl rfl, h.idle, (absurd he ·)⟩

/-! ## The links -/

theorem Calms.takeReadEvents (s : State) (p : Port) (tag : Byte) : Calms x s (s.takeReadEvents p tag) := by
  have hhold : Calms x s (s.setPort p ((s.port p).holdEvents tag)) :=
    .of_records s p _ (fun h => by simp [PortRec.holdEvents, h, remark]) rfl
  unfold State.takeReadEvents
  split
  case h_3 => exact hhold
  case h_4 => exact hhold
  all_goals exact .nak s p tag _

theorem Calms.takeAbort (s : State) (p : Port) (tag : Byte) : Calms x s (s.takeAbort p tag) := by
  have htaken : Calms x s (s.abortTaken p tag) := ((Calms.of_port s p _).trans (.abortQueue _ p)).trans (.ack _ p tag _)
  unfold State.takeAbort
  split
  case h_3 => exact htaken
  case h_4 => exact htaken
  all_goals exact .nak s p tag _

/-- A command joins the queue of a LIVE port alone (R172). -/
theorem Calms.takeCommand (s : State) (p : Port) (kind : CommandKind) (flags tag : Byte) (payload : List Byte) :
    Calms x s (s.takeCommand p kind flags tag payload) := by
  unfold State.takeCommand
  split
  case h_3 hlive =>
    unfold State.enqueue
    simp only
    split
    · exact .placeReply s p _
    · split
      · exact .nak s p tag _
      · exact ((Calms.of_awake s p _ (by rw [hlive]; rfl)).trans (.ack _ p tag _)).trans (.arbitrate _)
  all_goals exact .nak s p tag _

theorem Calms.failSend (s : State) (p : Port) (reason : NakReason) (tag : Byte) : Calms x s (s.failSend p reason tag) := by
  refine Calms.trans (t := s.setPort p ((s.port p).countError reason)) ?_ (.nak _ p tag reason)
  cases reason <;> exact .of_port s p _

/-- A FETCH leaves an empty event queue empty and a lost count of 0 at 0 (R131, R171). -/
theorem State.SettledAt.endFetch {q : PortRec} (h : s.SettledAt b p q) (n : Nat) : s.SettledAt b p (q.endFetch n) := by
  unfold PortRec.endFetch
  split
  · exact h
  · simp only
    split
    · refine ⟨h.lease, h.grace, fun ht => ?_, h.asks, h.idle, h.gone⟩
      obtain ⟨hevents, hlost, hwarned, hwaiter⟩ := h.silent ht
      exact ⟨by simp [PortRec.consume, hevents], by simp [PortRec.consume, hlost], hwarned, hwaiter⟩
    · exact ⟨h.lease, h.grace, h.silent, h.asks, h.idle, h.gone⟩

theorem Calms.fetch (s : State) (p : Port) (part : FetchPart) : Calms x s (s.fetch p part) := by
  have hbegin {q : PortRec} (h : s.SettledAt (x = some p) p q) : s.SettledAt (x = some p) p q.beginFetch :=
    ⟨h.lease, h.grace, h.silent, h.asks, h.idle, h.gone⟩
  unfold State.fetch
  split
  · exact .refl s
  · refine .of_settled s p _ ((s.port p).fetch_keeps part).1 fun h => ?_
    cases part with
    | whole n => exact (hbegin h).endFetch n
    | lead => exact hbegin h
    | rise n => exact h.endFetch n

/-- A session starts with its lease running and no grace (R105). -/
theorem State.Settled.takeAttach (hs : s.Settled none) (p : Port) (tag : Byte) : (s.takeAttach p tag).Settled none := by
  unfold State.takeAttach
  split
  case h_2 => exact (hs.setPort_awake rfl (fun h => absurd rfl h) fun _ => rfl).calms (.ack _ p tag _)
  all_goals exact hs.calms (.nak s p tag _)

theorem State.Settled.takeRenew (hs : s.Settled none) (p : Port) (tag : Byte) : (s.takeRenew p tag).Settled none := by
  have hrenew (n : Nat) : (s.setPort p ((s.port p).renewLease n)).Settled none :=
    hs.setPort_awake rfl (fun h => absurd rfl h) fun _ => rfl
  unfold State.takeRenew
  simp only
  split
  case h_3 => exact (hrenew _).calms (.ack _ p tag _)
  case h_4 => exact (hrenew _).calms (((Calms.recomputeExposure _).trans (.ack _ p tag _)).trans (.arbitrate _))
  all_goals exact hs.calms (.nak s p tag _)

theorem State.Settled.takeDetach (hs : s.Settled none) (p : Port) (tag : Byte) : (s.takeDetach p tag).Settled none := by
  unfold State.takeDetach
  simp only
  split
  case h_3 => exact (hs.enterClosing p).calms (.ack _ p tag _)
  case h_4 => exact (hs.enterClosing p).calms (.ack _ p tag _)
  case h_5 => exact hs.calms (.ack s p tag _)
  all_goals exact hs.calms (.nak s p tag _)

theorem State.Settled.answer (hs : s.Settled none) (p : Port) (tag : Byte) (hu : u.Settled none) : (s.answer p tag u).Settled none := by
  unfold State.answer
  split
  · exact hs
  · exact hs.calms (.nak s p tag _)
  · exact hu

theorem State.Settled.takeFrame (hs : s.Settled none) (p : Port) (kind : FrameKind) (flags tag : Byte) (payload : List Byte) :
    (s.takeFrame p kind flags tag payload).Settled none := by
  refine hs.answer p tag ?_
  cases kind with
  | attach => exact hs.takeAttach p tag
  | detach => exact hs.takeDetach p tag
  | renew => exact hs.takeRenew p tag
  | readEvents => exact hs.calms (.takeReadEvents s p tag)
  | status => exact hs.calms (.ack s p tag _)
  | abort => exact hs.calms (.takeAbort s p tag)
  | queued k => exact hs.calms (.takeCommand s p k flags tag payload)

theorem State.Settled.send (hs : s.Settled none) (p : Port) (bytes : List Byte) : (s.send p bytes).Settled none := by
  unfold State.send
  split
  · exact hs
  · split
    · exact hs.calms (.failSend s p _ _)
    · exact hs.takeFrame p _ _ _ _

theorem State.Settled.transaction (hs : s.Settled none) (p : Port) (bytes : List Byte) : (s.transaction p bytes).Settled none := by
  rcases s.transaction_cases p bytes with ⟨rest, -, h⟩ | ⟨rest, -, h⟩ | ⟨-, -, h⟩ <;> rw [h]
  · exact hs.send p rest
  · exact hs.calms (.fetch s p _)
  · split
    · exact hs
    · exact hs.calms (.of_port s p _)

/-! ## Touch and keys -/

theorem Calms.routePress (s : State) (q : Pixel) : Calms x s (s.routePress q) := by
  unfold State.routePress
  split
  · exact .of_rest
  · exact (Calms.trans .of_rest (.post _ _ _ _)).trans (.ite _ fun _ => .moveFocus _ _)

theorem Calms.contactUp (s : State) (q : Pixel) : Calms x s (s.contactUp q) := by
  unfold State.contactUp
  split
  · exact .of_rest
  · exact .trans .of_rest (.routePress _ q)

theorem Calms.contactDown (s : State) (q : Pixel) : Calms x s (s.contactDown q) := by
  have hmove (u : State) : Calms x u (u.routeMove q) := by
    unfold State.routeMove
    split
    · exact .post u _ _ _
    · exact .refl u
  unfold State.contactDown
  split
  · exact .trans .of_rest (hmove _)
  · exact .of_rest

theorem Calms.noContactDown (s : State) : Calms x s s.noContactDown := by
  have hrelease (u : State) (q : Pixel) : Calms x u (u.routeRelease q) := by
    unfold State.routeRelease
    split
    · exact .trans .of_rest (.post _ _ _ _)
    · exact .of_rest
  unfold State.noContactDown
  split
  · exact .of_rest
  · split
    · exact .of_rest
    · exact .trans .of_rest (hrelease _ _)

theorem Calms.sampleTouch (s : State) (reading : TouchReading) : Calms x s (s.sampleTouch reading) := by
  unfold State.sampleTouch
  split
  · exact .contactUp s _
  · exact .contactDown s _
  · exact .of_rest
  · exact .noContactDown s

theorem Calms.postKey (s : State) (c : KeyCapture) (body : EventBody) : Calms x s (s.postKey c body) :=
  .foldl _ _ (fun s p => .post s p body c.handle) s

theorem Calms.postCapture (s : State) (k : KeyId) (body : EventBody) : Calms x s (s.postCapture k body) := by
  unfold State.postCapture
  split
  · exact .refl s
  · exact .postKey s _ body

theorem Calms.acceptDown (s : State) (k : KeyId) : Calms x s (s.acceptDown k) := by
  unfold State.acceptDown State.routeDown
  simp only
  split
  · exact (Calms.trans .of_rest (.postKey _ _ _)).trans (.silence _)
  · exact .trans .of_rest (.postKey _ _ _)

theorem Calms.acceptUp (s : State) (k : KeyId) : Calms x s (s.acceptUp k) := (Calms.postCapture s k _).trans .of_rest

theorem Calms.repeatKey (s : State) (k : KeyId) : Calms x s (s.repeatKey k) := .trans .of_rest (.postCapture _ k _)

theorem Calms.readKey (s : State) (k : KeyId) (pressed : Bool) : Calms x s (s.readKey k pressed) := by
  unfold State.readKey
  simp only
  split
  · exact .of_rest
  · split
    · exact .of_rest
    · split
      · exact .acceptDown s k
      · exact .acceptUp s k

/-! ## Time and start-up -/

/-- A millisecond runs a lease in LIVE alone and a grace in LAPSED alone, and a request that is not there does not age (R107, R112,
R158). -/
theorem State.SettledAt.tick {q : PortRec} (h : s.SettledAt b p q) : s.SettledAt b p q.tick := by
  refine ⟨fun hr => ?_, fun hr => ?_, h.silent, fun hr => (h.asks hr).imp_right fun h => ⟨h.1, by simp [PortRec.tick, h.2]⟩, h.idle,
    h.gone⟩
  · exact (if_neg hr).trans (h.lease hr)
  · exact (if_neg hr).trans (h.grace hr)

theorem Calms.idle (s : State) : Calms x s s.idle := by
  have htime : Calms x s s.advanceTime :=
    ⟨fun p => by rw [State.port_advanceTime]; rfl, fun _ => id,
      fun p h => by rw [State.port_advanceTime]; exact h.tick.congr rfl rfl⟩
  unfold State.idle
  split
  · exact .refl s
  · split
    · exact .of_rest
    · exact htime.trans .of_rest

theorem State.Settled.expireLease (hs : s.Settled none) (p : Port) : (s.expireLease p).Settled none := by
  unfold State.expireLease
  split
  · exact hs.enterClosing p
  · exact hs.lapse p

theorem State.Settled.of_reset (d : DeviceState) (is : List Instr) :
    State.Settled none { State.reset with device := d, pending := is } := by
  intro p
  rw [State.port_reset]
  exact ⟨fun _ => rfl, fun _ => rfl, fun _ => ⟨rfl, rfl, rfl, rfl⟩, fun _ => .inr ⟨rfl, rfl⟩,
    fun _ => .inr (.inr ⟨rfl, fun _ hw => nomatch hw⟩), fun _ => ⟨rfl, fun _ hw => nomatch hw⟩⟩

/-- A profile is put in force while every port is DETACHED, and a DISABLED port holds no more than a DETACHED one (R103). -/
theorem State.Settled.takeProfile (hs : s.Settled none) (h : ∀ p, (s.port p).state = .detached) (e : Profile × Bool) :
    (s.takeProfile e).Settled none := by
  intro p
  have hp := hs p
  have hquiet : ¬ (s.port p).state.takesRecords := by rw [h]; decide
  have hgone : ¬ (s.port p).state.engaged := by rw [h]; decide
  have hlease := hp.lease (by rw [h]; decide)
  have hgrace := hp.grace (by rw [h]; decide)
  rw [State.port_takeProfile]
  exact ⟨fun _ => hlease, fun _ => hgrace, fun _ => hp.silent hquiet, fun _ => hp.asks hquiet, fun _ => hp.idle hquiet,
    fun _ => hp.gone hgone⟩

theorem State.Settled.becomeReady (hs : s.Settled none) (h : ∀ p, (s.port p).state = .detached) (image : Option (List Byte))
    (first : TouchReading) : (s.becomeReady image first).Settled none := by
  have hready := (hs.takeProfile h (loadedProfile image)).calms (.frameStart _)
  unfold State.becomeReady
  simp only
  split
  · exact hready.calms (.sampleTouch _ first)
  · exact hready

/-! ## Every step -/

theorem State.Settled.ite (hs : s.Settled none) (c : Prop) [Decidable c] (h : c → t.Settled none) :
    (if c then t else s).Settled none := by
  split
  · exact h ‹_›
  · exact hs

theorem State.Settled.ite_calms (hs : s.Settled none) (c : Prop) [Decidable c] (h : Calms none s t) :
    (if c then t else s).Settled none :=
  hs.ite c fun _ => hs.calms h

/-- A meaning has a next state in which every port is settled. -/
abbrev Settles (o : Host.Outcome State Fault Refusal) : Prop := ∃ t, o = .next t ∧ t.Settled none

/-- A slice row of a command whose work is calm, whatever the port's own requests do. -/
theorem Settles.slice {k : CommandKind} {work : QCmd → State → SliceEnd} (hs : s.Settled none) (he : s.SliceEngaged)
    (h : ∀ c, (s.port p).state.engaged → Calms (some p) s (work c s).state) : Settles (.next (s.runSlice p k work)) :=
  ⟨_, rfl, hs.runSlice he h⟩

/-- Every command and event leaves every port settled. -/
theorem exec_settles (i : Instr) (s : State) (hquiet : s.Quiet) (hs : s.Settled none) : Settles (exec i s) := by
  have he := hquiet.2
  cases i with
  | deviceReset => exact ⟨_, rfl, .of_reset .held _⟩
  | deviceResetEnd => exact ⟨_, rfl, hs.ite _ fun _ => .of_reset .starting _⟩
  | profileLoadEnd image first =>
    exact ⟨_, rfl, hs.ite _ fun h => hs.becomeReady (hquiet.1 (by rw [h]; decide)) image first⟩
  | nakFraming p bytes => exact ⟨_, rfl, hs.send p bytes⟩
  | fetch p part => exact ⟨_, rfl, hs.calms (.fetch s p part)⟩
  | attach p tag => exact ⟨_, rfl, hs.answer p tag (hs.takeAttach p tag)⟩
  | renew p tag => exact ⟨_, rfl, hs.answer p tag (hs.takeRenew p tag)⟩
  | detach p tag => exact ⟨_, rfl, hs.answer p tag (hs.takeDetach p tag)⟩
  | readEvents p tag => exact ⟨_, rfl, hs.answer p tag (hs.calms (.takeReadEvents s p tag))⟩
  | status p tag => exact ⟨_, rfl, hs.answer p tag (hs.calms (.ack s p tag _))⟩
  | abort p tag => exact ⟨_, rfl, hs.answer p tag (hs.calms (.takeAbort s p tag))⟩
  | commandAdmission p kind flags tag payload =>
    refine ⟨_, rfl, ?_⟩
    split
    · exact hs
    · split
      · exact hs.calms (.nak s p tag _)
      · exact hs.answer p tag (hs.calms (.takeCommand s p kind flags tag payload))
  | createWindow p => exact .slice hs he fun c heng => .of_oneSlice fun s' res h => .createWindow heng h
  | destroyWindow p =>
    refine .slice hs he fun c _ => .of_ownWindow fun w hw s' res h => ?_
    cases h
    exact .removeWindow s w
  | placeWindow p => exact .slice hs he fun c _ => .of_ownWindow fun w hw s' res h => .placeWindow h
  | showWindow p =>
    refine .slice hs he fun c _ => .of_ownWindow fun w hw s' res h => ?_
    cases h
    exact (Calms.updateFields s _ (fun w => { w with shown := true })).trans (.recomputeExposure _)
  | hideWindow p =>
    refine .slice hs he fun c _ => .of_ownWindow fun w hw s' res h => ?_
    cases h
    exact ((Calms.updateFields s _ (fun w => { w with shown := false })).trans (.withdrawFocus _ _ _ _)).trans (.recomputeExposure _)
  | raiseWindow p =>
    refine .slice hs he fun c _ => .of_ownWindow fun w hw s' res h => ?_
    cases h
    exact (Calms.restack hw rfl rfl (insertTop_perm _ _)).trans (.recomputeExposure _)
  | lowerWindow p =>
    refine .slice hs he fun c _ => .of_ownWindow fun w hw s' res h => ?_
    cases h
    exact (Calms.restack hw rfl rfl (insertBottom_perm _ _)).trans (.recomputeExposure _)
  | setBand p => exact .slice hs he fun c _ => .of_ownWindow fun w hw s' res h => .setBand hw h
  | setWindowModes p =>
    refine .slice hs he fun c _ => .of_ownWindow fun w hw s' res h => ?_
    split at h <;> cases h
    exact .setModes s w _
  | grantRead p => exact .slice hs he fun c _ => .of_ownWindow fun w hw s' res h => .grantRead h
  | revokeRead p =>
    refine .slice hs he fun c _ => .of_ownWindow fun w hw s' res h => ?_
    split at h <;> cases h
    exact .updateWindow s _ _ (fun _ => rfl) fun w q hq => .inl (List.mem_filter.1 hq).1
  | queryWindow p =>
    refine .slice hs he fun c _ => .of_oneSlice fun s' res h => ?_
    split at h
    · cases h
    · split at h <;> cases h
      exact .refl s
  | setPen p =>
    refine .slice hs he fun c _ => .of_ownWindow fun w hw s' res h => ?_
    split at h <;> cases h
    exact .updateFields s _ _
  | setCursor p =>
    refine .slice hs he fun c _ => .of_ownWindow fun w hw s' res h => ?_
    split at h <;> cases h
    exact .updateFields s _ _
  | writeText p =>
    refine .slice hs he fun c _ => .of_ownDrawing fun pr w => ?_
    split
    · exact .refl s
    · exact .writeText s pr w _
  | putCells p =>
    refine .slice hs he fun c _ => .of_ownDrawing fun pr w => ?_
    split
    · exact .refl s
    · exact .rectSlice_ite s pr _ _ _ _ _ _
  | fillRect p =>
    refine .slice hs he fun c _ => .of_ownDrawing fun pr w => ?_
    split
    · exact .refl s
    · exact .rectSlice_ite s pr _ _ _ _ _ _
  | copyRect p => exact Settles.slice (work := copyWork p) hs he fun c _ => .copyWork s p c
  | shiftRect p =>
    refine .slice hs he fun c _ => .of_ownDrawing fun pr w => ?_
    split
    · exact .refl s
    · exact .rectSlice_ite s pr _ _ _ _ _ _
  | readCells p =>
    refine .slice hs he fun c _ => ?_
    split
    · exact .refl s
    · split
      · exact .refl s
      · split <;> exact .refl s
  | loadGlyphs p =>
    refine .slice hs he fun c heng => .of_oneSlice fun s' res h => ?_
    split at h <;> cases h
    exact .of_busy s p (s.port p).brightness _ heng
  | requestFocus p => exact .slice hs he fun c _ => .of_ownWindow fun w hw s' res h => .requestFocus h
  | releaseFocus p =>
    refine .slice hs he fun c _ => .of_oneSlice fun s' res h => ?_
    split at h <;> cases h
    exact .releaseFocus s p
  | toneStart p =>
    refine .slice hs he fun c _ => .of_oneSlice fun s' res h => ?_
    split at h
    · cases h
    · split at h <;> cases h
      exact .startTone s p _
  | toneStop p =>
    refine .slice hs he fun c _ => .of_oneSlice fun s' res h => ?_
    split at h <;> cases h
    exact .endTone s p _
  | setBrightness p =>
    refine .slice hs he fun c heng => .of_oneSlice fun s' res h => ?_
    split at h <;> cases h
    exact .of_busy s p _ (s.port p).bank heng
  | frameMark p =>
    refine .slice hs he fun c _ => ?_
    split <;> exact .refl s
  | frameStart => exact ⟨_, rfl, hs.ite_calms _ (.frameStart s)⟩
  | touchSample reading => exact ⟨_, rfl, hs.ite_calms _ (.sampleTouch s reading)⟩
  | pressReport x y => exact ⟨_, rfl, hs.ite_calms _ (.contactUp s _)⟩
  | releaseReport => exact ⟨_, rfl, hs.ite_calms _ (.noContactDown s)⟩
  | keyReading k pressed => exact ⟨_, rfl, hs.ite_calms _ (.readKey s k pressed)⟩
  | downReport k => exact ⟨_, rfl, hs.ite_calms _ (.acceptDown s k)⟩
  | repeatReport k => exact ⟨_, rfl, hs.ite_calms _ (.repeatKey s k)⟩
  | upReport k => exact ⟨_, rfl, hs.ite_calms _ (.acceptUp s k)⟩
  | leaseWarning p =>
    exact ⟨_, rfl, hs.ite _ fun h => hs.calms ((Calms.of_awake s p _ (by rw [h.1]; rfl)).trans (.post _ p _ _))⟩
  | leaseExpiry p => exact ⟨_, rfl, hs.ite _ fun _ => hs.expireLease p⟩
  | graceExpiry p => exact ⟨_, rfl, hs.ite _ fun _ => hs.enterClosing p⟩
  | teardownRemoval p =>
    refine ⟨_, rfl, hs.ite _ fun h => ?_⟩
    rcases s.comeRemoval_cases p with ⟨-, hr⟩ | ⟨-, hr⟩ <;> rw [hr]
    · exact hs.calms .of_rest
    · exact hs.teardownStep h
  | toneExpiry p => exact ⟨_, rfl, hs.ite_calms _ (.endTone s p _)⟩
  | tonePhaseChange => exact ⟨_, rfl, hs.calms .of_rest⟩
  | scanRowFetch =>
    refine ⟨_, rfl, ?_⟩
    split
    · exact hs
    · exact hs.ite_calms _ .of_rest
  | ignoredTransaction p bytes => exact ⟨_, rfl, hs.transaction p bytes⟩

theorem step_settles (hquiet : s.Quiet) (hs : s.Settled none) (h : step s = .next t) : t.Settled none := by
  unfold step at h
  split at h
  · cases h
    exact hs.calms (.idle s)
  · rename_i i rest _
    obtain ⟨u, hu, hsettled⟩ := exec_settles i { s with pending := rest } hquiet (hs.calms .of_rest)
    rw [hu] at h
    cases h
    exact hsettled

end Settling

/-- Settles O56: a step keeps the quiet start and the engaged slice as it keeps the table, and leaves every port settled. -/
theorem stepKeepsTheSessionsAgreeing : Obligations.StepKeepsTheSessionsAgreeing := by
  intro s t hs h
  obtain ⟨hquiet, hsettled⟩ := s.sessionsAgree_iff.1 hs
  exact t.sessionsAgree_iff.2 ⟨step_keeps TableChange.keeps_quiet hquiet h, step_settles hquiet hsettled h⟩

end Sys2Proof.Machine
end

section
namespace Sys2Proof.Machine

-- One theorem is checked at a time, for the memory limit.
set_option Elab.async false

/-! The event queues (chapter 7): how a posted record enters the queue, which records a READ_EVENTS holds, when a FETCH consumes its
reply, and the two lines that tell a host of its queues. -/

/-! ## RDY and ATN (R132, R175) -/

theorem State.rdy_iff (s : State) (p : Port) : s.rdy p = true ↔ s.device = .ready ∧ (s.port p).state = .live
    ∧ (s.port p).queue.length < Config.queueCommands ∧ payloadBytes (s.port p).queue + Config.maxPayload ≤ Config.queueBytes := by
  simp [State.rdy, and_assoc]

theorem State.atn_iff (s : State) (p : Port) : s.atn p = true
    ↔ ((s.port p).state = .live ∨ (s.port p).state = .lapsed) ∧ ((s.port p).events ≠ [] ∨ 0 < (s.port p).lost) := by
  rw [← PortState.takesRecords_iff]
  simp [State.atn]

/-- Settles O9: each line is the conjunction it is read as; a frame's largest payload fits exactly while 512 bytes are free. -/
theorem linesFollowTheirConditions : Obligations.LinesFollowTheirConditions := by
  refine fun s p => ⟨(s.rdy_iff p).trans ?_, s.atn_iff p⟩
  have hroom (n : Nat) : n + Config.maxPayload ≤ Config.queueBytes ↔ 512 ≤ 1024 - n := by
    simp only [Config.maxPayload, Config.queueBytes]
    omega
  rw [hroom]
  rfl

/-! ## A record that is posted (R125 to R127) -/

theorem EventBody.isFailed_iff (b : EventBody) : b.isFailed = true ↔ ∃ x, b = .failed x := by
  cases b <;> simp [EventBody.isFailed]

theorem EventBody.isMove_iff (b : EventBody) : b.isMove = true ↔ ∃ q, b = .touchMove q := by
  cases b <;> simp [EventBody.isMove]

theorem hasPlace_iff (es : List Record) (b : EventBody) : hasPlace es b.isFailed = true
    ↔ es.length < 16 ∧ ((∃ x, b = .failed x) ∨ (es.filter (fun e => !e.body.isFailed)).length < 14) := by
  rw [← EventBody.isFailed_iff]
  simp only [hasPlace, Bool.and_eq_true, Bool.or_eq_true, decide_eq_true_eq]
  rfl

/-- A move `r` coalesces into `last`, the newest record of the queue `es`, an unheld move of the same handle (R126). -/
def CoalescesInto (es : List Record) (r : Record) (init : List Record) (last : Record) : Prop :=
  es = init ++ [last] ∧ (∃ q, r.body = .touchMove q) ∧ (∃ q, last.body = .touchMove q) ∧ last.held = false ∧ last.handle = r.handle

theorem coalesce_eq_some_iff (es : List Record) (r : Record) (us : List Record) : coalesce es r = some us
    ↔ ∃ init last, CoalescesInto es r init last ∧ us = init ++ [{ last with body := r.body, time := r.time }] := by
  simp only [CoalescesInto, ← EventBody.isMove_iff]
  rcases es.eq_nil_or_concat' with rfl | ⟨init, last, rfl⟩
  · simp [coalesce]
  · simp only [coalesce, List.getLast?_concat, List.dropLast_concat, Bool.and_eq_true, Bool.not_eq_true', beq_iff_eq]
    constructor
    · intro h
      split at h
      · rename_i hc
        obtain ⟨⟨⟨hr, hl⟩, hheld⟩, hhandle⟩ := hc
        exact ⟨init, last, ⟨rfl, hr, hl, hheld, hhandle⟩, (Option.some.inj h).symm⟩
      · cases h
    · rintro ⟨init', last', ⟨he, hr, hl, hheld, hhandle⟩, rfl⟩
      obtain ⟨rfl, hlast⟩ := List.append_inj' he rfl
      cases hlast
      rw [if_pos ⟨⟨⟨hr, hl⟩, hheld⟩, hhandle⟩]

theorem PortRec.join_place {q : PortRec} {r : Record} (h : hasPlace q.events r.body.isFailed = true) :
    q.join r = { q with events := q.events ++ [r] } := if_pos h

theorem PortRec.join_coalesces {q : PortRec} {r : Record} {init : List Record} {last : Record}
    (h : ¬ hasPlace q.events r.body.isFailed = true) (hc : CoalescesInto q.events r init last) :
    q.join r = { q with events := init ++ [{ last with body := r.body, time := r.time }] } := by
  rw [PortRec.join, if_neg h, (coalesce_eq_some_iff _ _ _).2 ⟨init, last, hc, rfl⟩]

theorem PortRec.join_lost {q : PortRec} {r : Record} (h : ¬ hasPlace q.events r.body.isFailed = true)
    (hc : ¬ ∃ init last, CoalescesInto q.events r init last) : q.join r = { q with lost := saturate q.lost } := by
  have hnone : coalesce q.events r = none := Option.eq_none_iff_forall_ne_some.2 fun us hu => by
    obtain ⟨init, last, hinto, -⟩ := (coalesce_eq_some_iff _ _ _).1 hu
    exact hc ⟨init, last, hinto⟩
  rw [PortRec.join, if_neg h, hnone]

/-- Settles O14: a post is dropped or joins, and `join` asks for a place first, then for a record to coalesce into. -/
theorem postedRecordsJoinCoalesceOrAreLost : Obligations.PostedRecordsJoinCoalesceOrAreLost := by
  refine fun s p body h => ⟨fun hst => ?_, fun hst => ?_⟩
  · exact if_neg fun ht => ((PortState.takesRecords_iff _).1 ht).elim hst.1 hst.2
  · have hpost : s.post p body h = s.setPort p ((s.port p).join ⟨body, s.timeBase, h, false⟩) :=
      if_pos ((PortState.takesRecords_iff _).2 hst)
    have hplace := hasPlace_iff (s.port p).events body
    rw [hpost]
    refine ⟨fun hp => congrArg (s.setPort p) (PortRec.join_place (hplace.2 hp)), fun init last hp hf => ?_, fun hp hf => ?_⟩
    · exact congrArg (s.setPort p) (PortRec.join_coalesces (mt hplace.1 hp) hf)
    · exact congrArg (s.setPort p) (PortRec.join_lost (mt hplace.1 hp) hf)

/-! ## READ_EVENTS (R129, R130) -/

theorem Record.release_of_not_held {r : Record} (h : r.held = false) : r.release = r := by
  cases r
  cases h
  rfl

/-- Marking a new event reply's records changes no record but for its held mark. -/
theorem map_release_remark (n : Nat) (rs : List Record) : (remark n rs).map Record.release = rs.map Record.release := by
  induction rs generalizing n with
  | nil => cases n <;> rfl
  | cons r rs ih =>
    cases hh : r.held with
    | true => simp only [remark, hh, if_true, List.map_cons, ih]; rfl
    | false =>
      cases n with
      | zero => simp [remark, hh, ih]
      | succ k => simp only [remark, hh, Bool.false_eq_true, if_false, List.map_cons, ih]; rfl

/-- The records held after the marking are the first `n` that were unheld. -/
theorem filter_held_remark (n : Nat) (rs : List Record) :
    ((remark n rs).filter (fun r => r.held)).map Record.release = (rs.filter (fun r => !r.held)).take n := by
  induction rs generalizing n with
  | nil => cases n <;> rfl
  | cons r rs ih =>
    cases hh : r.held with
    | true =>
      have hreleased : r.release.held = false := rfl
      simp [remark, hh, hreleased, ih]
    | false =>
      cases n with
      | zero => simp [remark, hh, ih]
      | succ k =>
        have hmarked : Record.release { r with held := true } = r := Record.release_of_not_held hh
        simp [remark, hh, hmarked, ih]

theorem State.takeReadEvents_open {s : State} {p : Port} (h : (s.port p).state = .live ∨ (s.port p).state = .lapsed) (tag : Byte) :
    s.takeReadEvents p tag = s.setPort p ((s.port p).holdEvents tag) := by
  rw [State.takeReadEvents]
  rcases h with h | h <;> rw [h]

theorem Record.bytes_eq (r : Record) : r.bytes = [byte r.body.code] ++ be16 r.time.toNat
    ++ (match r.handle with | some h => [byte h.slot, h.gen] | none => [0, Config.absentGeneration])
    ++ [byte r.body.bytes.length] ++ r.body.bytes := by
  rw [Record.bytes]
  cases r.handle <;> rfl

/-- Settles O15: the new queue is `remark` of the old one, and each kind of record has its code and bytes by its definition. -/
theorem readEventsHoldsTheOldestRecords : Obligations.ReadEventsHoldsTheOldestRecords := by
  refine ⟨fun s p tag hd hst => ⟨remark Config.eventsPerReply (s.port p).events, ?_, map_release_remark _ _, filter_held_remark _ _⟩,
    fun _ _ _ => rfl, Record.bytes_eq, ?_⟩
  · refine congrArg Host.Outcome.next ?_
    rw [State.answer_ready hd, State.takeReadEvents_open hst]
    rfl
  · refine ⟨fun q => ?press, ?_, ?_, fun k => ?key, ?_, ?_, ?_, ?_, ?_, ?_, ?_, fun n => ?exposure, fun r => ?report, fun ms => ?lease,
      fun tag => ?tone⟩
    case press => exact ⟨⟨rfl, rfl⟩, ⟨rfl, rfl⟩, rfl, rfl⟩
    case key => exact ⟨⟨rfl, rfl⟩, ⟨rfl, rfl⟩, rfl, rfl⟩
    case exposure => exact ⟨⟨rfl, rfl⟩, ⟨rfl, rfl⟩, rfl, rfl⟩
    case report => exact ⟨⟨rfl, rfl⟩, rfl, rfl⟩
    case lease => exact ⟨⟨rfl, rfl⟩, rfl, rfl⟩
    case tone => exact ⟨⟨rfl, rfl⟩, ⟨rfl, rfl⟩, ⟨rfl, rfl⟩, ⟨rfl, rfl⟩, rfl, rfl⟩
    all_goals exact ⟨rfl, rfl⟩

/-! ## FETCH (R131, R171) -/

/-- A FETCH changes what the part holds for its port alone (R171, R178). -/
theorem exec_fetch {s : State} {p : Port} {part : FetchPart} {q : PortRec} (h : s.device ≠ .held) (hq : (s.port p).fetch part = q) :
    exec (.fetch p part) s = .next (s.setPort p q) := by
  rw [← hq]
  exact congrArg Host.Outcome.next (if_neg h)

theorem reportedLost_some (r : Reply) : reportedLost (some r) = (match r.body with | .events _ lost _ => lost | _ => 0) := by
  obtain ⟨code, tag, body⟩ := r
  cases body <;> rfl

/-- A FETCH whose reply has left the buffer, or never came from it, consumes nothing. -/
theorem PortRec.endFetch_cut {q : PortRec} {bytes : List Byte} (h : q.transfer = some ⟨bytes, false⟩) (n : Nat) :
    q.endFetch n = { q with transfer := none, dataOut := shiftedOut bytes n } := by
  rw [PortRec.endFetch, h]
  exact if_neg (by simp)

theorem PortRec.endFetch_complete {q : PortRec} {bytes : List Byte} {n : Nat} (h : q.transfer = some ⟨bytes, true⟩)
    (hn : bytes.length ≤ n) : q.endFetch n = { q with transfer := none, dataOut := shiftedOut bytes n }.consume := by
  rw [PortRec.endFetch, h]
  exact if_pos ⟨rfl, hn⟩

theorem PortRec.endFetch_short {q : PortRec} {bytes : List Byte} {n : Nat} {live : Bool} (h : q.transfer = some ⟨bytes, live⟩)
    (hn : n < bytes.length) : q.endFetch n = { q with transfer := none, dataOut := bytes.take n } := by
  rw [PortRec.endFetch, h]
  refine (if_neg fun hc => absurd hc.2 (Nat.not_le.2 hn)).trans ?_
  simp [shiftedOut, Nat.sub_eq_zero_of_le hn.le]

theorem PortRec.transfer_beginFetch_some {q : PortRec} {r : Reply} (h : q.reply = some r) :
    q.beginFetch.transfer = some ⟨r.bytes, true⟩ := by
  simp [PortRec.beginFetch, h]

theorem PortRec.transfer_beginFetch_none {q : PortRec} (h : q.reply = none) :
    q.beginFetch.transfer = some ⟨[0, 0, 0, 0, 0], false⟩ := by
  have hempty : Reply.emptyReply.bytes = [0, 0, 0, 0, 0] := by decide +kernel
  simp [PortRec.beginFetch, h, hempty]

theorem PortRec.fetch_whole_complete {q : PortRec} {r : Reply} {n : Nat} (hr : q.reply = some r) (hn : r.bytes.length ≤ n) :
    q.fetch (.whole n) = { q with
      transfer := none, dataOut := shiftedOut r.bytes n, reply := none
      events := q.events.filter (fun e => !e.held), lost := q.lost - reportedLost (some r) } := by
  rw [PortRec.fetch, PortRec.endFetch_complete (PortRec.transfer_beginFetch_some hr) hn, ← hr]
  rfl

theorem PortRec.fetch_whole_short {q : PortRec} {r : Reply} {n : Nat} (hr : q.reply = some r) (hn : n < r.bytes.length) :
    q.fetch (.whole n) = { q with transfer := none, dataOut := r.bytes.take n } :=
  PortRec.endFetch_short (PortRec.transfer_beginFetch_some hr) hn

theorem PortRec.fetch_whole_empty {q : PortRec} (hr : q.reply = none) (n : Nat) :
    q.fetch (.whole n) = { q with transfer := none, dataOut := shiftedOut [0, 0, 0, 0, 0] n } :=
  PortRec.endFetch_cut (PortRec.transfer_beginFetch_none hr) n

/-- The state at the lead byte's end of a FETCH on a port (R171). -/
def State.fetching (s : State) (p : Port) : State := s.setPort p (s.port p).beginFetch

theorem State.port_fetching (s : State) (p : Port) : (s.fetching p).port p = (s.port p).beginFetch := State.port_setPort_self _ _ _

theorem exec_fetch_lead {s : State} (h : s.device ≠ .held) (p : Port) : exec (.fetch p .lead) s = .next (s.fetching p) :=
  exec_fetch h rfl

/-- A port with a reply that is being fetched enters CLOSING: the buffer and the queue are empty, and the FETCH is cut (R133, R171). -/
theorem EntersClosing.cuts {s t : State} {p : Port} {r : Reply}
    (h : EntersClosing (s.fetching p) t p) (hr : (s.port p).reply = some r) :
    t.device = s.device ∧ (t.port p).transfer = some ⟨r.bytes, false⟩ ∧ (t.port p).reply = none ∧ (t.port p).events = [] := by
  obtain ⟨hreply, hevents, -⟩ := h.queues
  obtain ⟨htransfer, -, -⟩ := h.link
  refine ⟨h.panel.1, ?_, hreply, hevents⟩
  rw [htransfer, State.port_fetching, PortRec.transfer_beginFetch_some hr]
  rfl

/-- The row that expires a port's session enters CLOSING: its grace, or its lease where it has no grace period (R110, R112). -/
theorem exec_expiry {s : State} {p : Port} {i : Instr} (h : (i = .graceExpiry p ∧ (s.port p).state = .lapsed ∧ (s.port p).grace = 0)
      ∨ (i = .leaseExpiry p ∧ (s.port p).state = .live ∧ (s.port p).lease = 0 ∧ (s.portProf p).gracePeriod = 0)) :
    exec i s = .next (s.enterClosing p) := by
  rcases h with ⟨rfl, hst, hz⟩ | ⟨rfl, hst, hz, hg⟩
  · exact congrArg Host.Outcome.next (if_pos ⟨hst, hz⟩)
  · exact congrArg Host.Outcome.next ((if_pos ⟨hst, hz⟩).trans (if_pos hg))

theorem exec_detach_live {s : State} {p : Port} (hd : s.device = .ready) (h : (s.port p).state = .live) (tag : Byte) :
    exec (.detach p tag) s = .next ((s.enterClosing p).ack p tag (.detach (s.port p).epoch .live)) := by
  refine congrArg Host.Outcome.next ?_
  rw [State.answer_ready hd, State.takeDetach_open (.inl h), h]

/-- A FETCH that was cut ends after another reply has been placed: its own bytes go out, and the reply placed stays in the buffer. -/
theorem fetch_rise_ack {u : State} {p : Port} {bytes : List Byte} (hd : u.device ≠ .held)
    (ht : (u.port p).transfer = some ⟨bytes, false⟩) (he : (u.port p).events = []) (tag : Byte) (body : ReplyBody) (n : Nat) :
    ∃ t, exec (.fetch p (.rise n)) (u.ack p tag body) = .next t ∧ (t.port p).dataOut = shiftedOut bytes n
      ∧ (t.port p).reply = ((u.ack p tag body).port p).reply ∧ ((u.ack p tag body).port p).reply ≠ none ∧ (t.port p).events = [] := by
  have hport : (u.ack p tag body).port p = (u.port p).place ⟨.ack, tag, body⟩ := State.port_setPort_self _ _ _
  have hcut : ((u.port p).place ⟨.ack, tag, body⟩).transfer = some ⟨bytes, false⟩ := by simp [PortRec.place, ht, Transfer.cut]
  refine ⟨_, exec_fetch (s := u.ack p tag body) hd ((congrArg (·.endFetch n) hport).trans (PortRec.endFetch_cut hcut n)), ?_⟩
  rw [State.port_setPort_self, hport]
  exact ⟨rfl, rfl, Option.some_ne_none _, by simp [PortRec.place, he]⟩

/-- Settles O16: a FETCH is fixed at its lead byte, and every way into CLOSING cuts it before its rise. -/
theorem fetchConsumesACompleteReply : Obligations.FetchConsumesACompleteReply := by
  refine ⟨fun s p n hd => ?_, fun s p n r i hd hr hi => ?_, fun s p n tag r hd hst hr => ?_, fun _ => rfl, rfl, rfl, rfl,
    fun _ _ => rfl, fun _ _ _ _ => rfl, rfl, fun _ _ _ => rfl, fun _ _ => rfl, fun _ _ => rfl⟩
  · refine ⟨fun r hr hn => exec_fetch hd ?_, fun r hr hn => exec_fetch hd (PortRec.fetch_whole_short hr hn),
      fun hr => exec_fetch hd (PortRec.fetch_whole_empty hr n)⟩
    rw [PortRec.fetch_whole_complete hr hn, reportedLost_some]
    rfl
  · obtain ⟨hdevice, htransfer, hreply, hevents⟩ := ((s.fetching p).enterClosing_closes p).cuts hr
    refine ⟨_, _, exec_fetch_lead hd p, exec_expiry (by rw [State.port_fetching]; exact hi), htransfer, hreply, hevents, ?_⟩
    exact exec_fetch (hdevice ▸ hd) (PortRec.endFetch_cut htransfer n)
  · have hlive : ((s.fetching p).port p).state = .live := by rw [State.port_fetching]; exact hst
    have hheld : s.device ≠ .held := by simp [hd]
    obtain ⟨hdevice, htransfer, -, hevents⟩ := ((s.fetching p).enterClosing_closes p).cuts hr
    obtain ⟨t, hrise, hkept⟩ := fetch_rise_ack (hdevice ▸ hheld) htransfer hevents tag (.detach ((s.fetching p).port p).epoch .live) n
    exact ⟨_, _, t, exec_fetch_lead hheld p, exec_detach_live (s := s.fetching p) hd hlive tag, hrise, hkept⟩

end Sys2Proof.Machine
end

section
namespace Sys2Proof.Machine

-- One theorem is checked at a time, for the memory limit.
set_option Elab.async false

/-! What the rules of key focus, touch capture and key captures read of the state, as a value of its own: most operations leave it as
it is, and each of the others has an equation that says what it changes. -/

/-! ## What the rules of the inputs read (R139, R147, R148, R150, R151, R153) -/

/-- What a window's part in focus and capture depends on. -/
structure Stance where
  owner : Port
  shown : Bool
  keyEligible : Bool

def Window.stance (w : Window) : Stance := ⟨w.owner, w.shown, w.keyEligible⟩

/-- The device and port states, the windows by handle, and what the input router and the key scanner hold. -/
structure Inputs where
  device : DeviceState
  state : Port → PortState
  window : Handle → Option Stance
  focus : Option Handle
  capture : Capture
  key : KeyId → KeyRec

def State.inputs (s : State) : Inputs where
  device := s.device
  state p := (s.port p).state
  window h := (s.windowOf h).map Window.stance
  focus := s.focus
  capture := s.capture
  key := s.key

/-- A key has a capture exactly while it is DOWN, of ports that take records, its repeat timer is stopped while it is UP, and its
count is short of an acceptance (R147, R148, R150, R151). -/
structure KeyRec.Agrees (state : Port → PortState) (q : KeyRec) : Prop where
  ports : ∀ c, q.capture = some c → ∀ p ∈ c.ports, (state p).takesRecords = true
  capture : q.capture.isSome = q.down
  up : q.down = false → q.timer = none
  count : q.agree < Config.keyAgreement

/-- Focus, capture and key captures name what they may. -/
structure Inputs.Agree (i : Inputs) : Prop where
  quietStart : i.device ≠ .ready → ∀ p, i.state p = .detached
  focus : ∀ h, i.focus = some h → ∃ v, i.window h = some v ∧ v.shown = true ∧ v.keyEligible = true ∧ i.state v.owner = .live
  capture : ∀ h o, i.capture = .captured h o → ∃ v, i.window h = some v ∧ v.owner = o ∧ i.state o = .live
  key : ∀ k, (i.key k).Agrees i.state

theorem State.inputs_window_eq_some_iff (s : State) (h : Handle) (v : Stance) :
    s.inputs.window h = some v ↔ ∃ w, s.windowOf h = some w ∧ w.stance = v := Option.map_eq_some_iff

theorem State.inputAgrees_iff (s : State) : s.InputAgrees ↔ s.inputs.Agree := by
  constructor
  · rintro ⟨hquiet, hfocus, hcapture, hports, hsome, hup, hcount⟩
    refine ⟨hquiet, fun h hh => ?_, fun h o hh => ?_, fun k => ⟨hports k, hsome k, hup k, hcount k⟩⟩
    · obtain ⟨w, hw, hw'⟩ := hfocus h hh
      exact ⟨w.stance, (s.inputs_window_eq_some_iff h _).2 ⟨w, hw, rfl⟩, hw'⟩
    · obtain ⟨w, hw, hw'⟩ := hcapture h o hh
      exact ⟨w.stance, (s.inputs_window_eq_some_iff h _).2 ⟨w, hw, rfl⟩, hw'⟩
  · rintro ⟨hquiet, hfocus, hcapture, hkey⟩
    refine ⟨hquiet, fun h hh => ?_, fun h o hh => ?_, fun k => (hkey k).ports, fun k => (hkey k).capture, fun k => (hkey k).up,
      fun k => (hkey k).count⟩
    · obtain ⟨v, hv, hv'⟩ := hfocus h hh
      obtain ⟨w, hw, rfl⟩ := (s.inputs_window_eq_some_iff h v).1 hv
      exact ⟨w, hw, hv'⟩
    · obtain ⟨v, hv, hv'⟩ := hcapture h o hh
      obtain ⟨w, hw, rfl⟩ := (s.inputs_window_eq_some_iff h v).1 hv
      exact ⟨w, hw, hv'⟩

/-! ## Changes that keep the agreement -/

section Agreeing

variable {i : Inputs} {s t u : State} {p : Port}

/-- Focus may end at any time. -/
theorem Inputs.Agree.weakenFocus (hi : i.Agree) {f : Option Handle} (hf : ∀ h, f = some h → i.focus = some h) :
    Inputs.Agree { i with focus := f } :=
  ⟨hi.quietStart, fun h hh => hi.focus h (hf h hh), hi.capture, hi.key⟩

/-- A capture may end at any time. -/
theorem Inputs.Agree.weakenCapture (hi : i.Agree) {c : Capture} (hc : ∀ h o, c = .captured h o → i.capture = .captured h o) :
    Inputs.Agree { i with capture := c } :=
  ⟨hi.quietStart, hi.focus, fun h o hh => hi.capture h o (hc h o hh), hi.key⟩

/-- Focus moves to a shown key-eligible window of a LIVE port (R153, R154). -/
theorem Inputs.Agree.setFocus (hi : i.Agree) {h : Handle} {v : Stance} (hv : i.window h = some v) (hshown : v.shown = true)
    (hkey : v.keyEligible = true) (hlive : i.state v.owner = .live) : Inputs.Agree { i with focus := some h } := by
  refine ⟨hi.quietStart, fun h' hh => ?_, hi.capture, hi.key⟩
  cases hh
  exact ⟨v, hv, hshown, hkey, hlive⟩

/-- A window of a LIVE port takes the capture (R139, R141). -/
theorem Inputs.Agree.setCapture (hi : i.Agree) {h : Handle} {v : Stance} (hv : i.window h = some v) (hlive : i.state v.owner = .live) :
    Inputs.Agree { i with capture := .captured h v.owner } := by
  refine ⟨hi.quietStart, hi.focus, fun h' o hh => ?_, hi.key⟩
  cases hh
  exact ⟨v, hv, rfl, hlive⟩

/-- Windows change so that the focus window and the window with the capture stand as before. -/
theorem Inputs.Agree.setWindows (hi : i.Agree) {f : Handle → Option Stance}
    (hfocus : ∀ h v, i.focus = some h → i.window h = some v → v.shown = true → v.keyEligible = true → f h = some v)
    (hcapture : ∀ h o v, i.capture = .captured h o → i.window h = some v → ∃ v', f h = some v' ∧ v'.owner = v.owner) :
    Inputs.Agree { i with window := f } := by
  refine ⟨hi.quietStart, fun h hh => ?_, fun h o hh => ?_, hi.key⟩
  · obtain ⟨v, hv, hshown, hkey, hlive⟩ := hi.focus h hh
    exact ⟨v, hfocus h v hh hv hshown hkey, hshown, hkey, hlive⟩
  · obtain ⟨v, hv, howner, hlive⟩ := hi.capture h o hh
    obtain ⟨v', hv', howner'⟩ := hcapture h o v hh hv
    exact ⟨v', hv', howner'.trans howner, hlive⟩

/-- Ports change state so that the owners that focus and capture rely on stay LIVE, and the ports of key captures go on taking
records. -/
theorem Inputs.Agree.setStates (hi : i.Agree) {d : DeviceState} {st : Port → PortState} (hd : d ≠ .ready → ∀ p, st p = .detached)
    (hfocus : ∀ h v, i.focus = some h → i.window h = some v → i.state v.owner = .live → st v.owner = .live)
    (hcapture : ∀ h o, i.capture = .captured h o → i.state o = .live → st o = .live)
    (hkey : ∀ k c, (i.key k).capture = some c → ∀ p ∈ c.ports, (i.state p).takesRecords = true → (st p).takesRecords = true) :
    Inputs.Agree { i with device := d, state := st } := by
  refine ⟨hd, fun h hh => ?_, fun h o hh => ?_, fun k => ?_⟩
  · obtain ⟨v, hv, hshown, hkey, hlive⟩ := hi.focus h hh
    exact ⟨v, hv, hshown, hkey, hfocus h v hh hv hlive⟩
  · obtain ⟨v, hv, howner, hlive⟩ := hi.capture h o hh
    exact ⟨v, hv, howner, hcapture h o hh hlive⟩
  · have hk := hi.key k
    exact ⟨fun c hc p hp => hkey k c hc p hp (hk.ports c hc p hp), hk.capture, hk.up, hk.count⟩

/-- Every key changes to one that agrees. -/
theorem Inputs.Agree.setKeys (hi : i.Agree) {ks : KeyId → KeyRec} (h : ∀ k, (i.key k).Agrees i.state → (ks k).Agrees i.state) :
    Inputs.Agree { i with key := ks } :=
  ⟨hi.quietStart, hi.focus, hi.capture, fun k => h k (hi.key k)⟩

/-- A change that the rules of the inputs do not see. -/
theorem State.InputAgrees.congr (hs : s.InputAgrees) (h : t.inputs = s.inputs) : t.InputAgrees := by
  rw [State.inputAgrees_iff, h]
  exact s.inputAgrees_iff.1 hs

/-- The state that has the inputs `i` agrees where they do. -/
theorem State.InputAgrees.of_inputs (hi : i.Agree) (h : s.inputs = i) : s.InputAgrees := s.inputAgrees_iff.2 (h ▸ hi)

/-! ## The operations that the rules do not see -/

theorem State.inputs_setPort (s : State) (p : Port) (r : PortRec) :
    (s.setPort p r).inputs = { s.inputs with state := fun q => if q = p then r.state else (s.port q).state } := by
  have hstate : (fun q => ((s.setPort p r).port q).state) = fun q => if q = p then r.state else (s.port q).state := by
    funext q
    rw [State.port_setPort]
    split <;> rfl
  exact congrArg (fun st => { s.inputs with state := st }) hstate

/-- What a port holds changes, but not its state. -/
theorem State.inputs_setPort_same (s : State) (p : Port) (r : PortRec) (h : r.state = (s.port p).state := by rfl) :
    (s.setPort p r).inputs = s.inputs := by
  rw [State.inputs_setPort]
  refine congrArg (fun st => { s.inputs with state := st }) (funext fun q => ?_)
  split
  · rename_i hq
    rw [hq, h]
  · rfl

theorem State.RecordsOnly.inputs (h : s.RecordsOnly t) : t.inputs = s.inputs := by
  have hstate : (fun q => (t.port q).state) = fun q => (s.port q).state := funext fun q => (h.keeps q).1
  unfold State.inputs
  rw [hstate, h.1]
  rfl

@[simp] theorem State.inputs_post (s : State) (p : Port) (body : EventBody) (h : Option Handle) :
    (s.post p body h).inputs = s.inputs := (s.post_records p body h).inputs

theorem State.inputs_foldl {α : Type} (l : List α) (f : State → α → State) (hf : ∀ (s : State) a, (f s a).inputs = s.inputs)
    (s : State) : (l.foldl f s).inputs = s.inputs := by
  induction l generalizing s with
  | nil => rfl
  | cons a l ih => exact (ih _).trans (hf s a)

theorem State.inputs_ite (c : Prop) [Decidable c] (h : c → t.inputs = s.inputs) : (if c then t else s).inputs = s.inputs := by
  split
  · exact h ‹_›
  · rfl

@[simp] theorem State.inputs_placeReply (s : State) (p : Port) (r : Reply) : (s.placeReply p r).inputs = s.inputs :=
  s.inputs_setPort_same p _

@[simp] theorem State.inputs_nak (s : State) (p : Port) (tag : Byte) (reason : NakReason) : (s.nak p tag reason).inputs = s.inputs :=
  s.inputs_placeReply p _

@[simp] theorem State.inputs_ack (s : State) (p : Port) (tag : Byte) (body : ReplyBody) : (s.ack p tag body).inputs = s.inputs :=
  s.inputs_placeReply p _

/-! Windows: a lookup by handle sees the handles and the stances of the stack alone. -/

/-- The stance of the first window of a handle. -/
def stanceIn (ws : List Window) (h : Handle) : Option Stance := (ws.find? (fun w => w.handle == h)).map Window.stance

theorem State.inputs_setWindows (s : State) (ws : List Window) :
    ({ s with windows := ws } : State).inputs = { s.inputs with window := stanceIn ws } := rfl

theorem stanceIn_cons (w : Window) (ws : List Window) (h : Handle) :
    stanceIn (w :: ws) h = if w.handle = h then some w.stance else stanceIn ws h := by
  unfold stanceIn
  rw [List.find?_cons]
  by_cases hw : w.handle = h
  · simp [hw]
  · simp [hw, beq_eq_false_iff_ne.2 hw]

theorem stanceIn_congr {ws xs : List Window} (h : xs.map (fun w => (w.handle, w.stance)) = ws.map (fun w => (w.handle, w.stance))) :
    stanceIn xs = stanceIn ws := by
  induction ws generalizing xs with
  | nil => rw [List.map_eq_nil_iff.1 h]
  | cons w ws ih =>
    obtain ⟨x, xs, rfl⟩ := List.exists_cons_of_ne_nil (l := xs) (fun e => by simp [e] at h)
    obtain ⟨hhead, htail⟩ := List.cons.inj h
    obtain ⟨hhandle, hstance⟩ := Prod.mk.inj hhead
    funext hd
    rw [stanceIn_cons, stanceIn_cons, hhandle, hstance, ih htail]

theorem State.inputs_windows_congr (s : State) {ws : List Window}
    (h : ws.map (fun w => (w.handle, w.stance)) = s.windows.map (fun w => (w.handle, w.stance))) :
    ({ s with windows := ws } : State).inputs = s.inputs := by
  rw [State.inputs_setWindows, stanceIn_congr h]
  rfl

@[simp] theorem State.inputs_recomputeExposure (s : State) : s.recomputeExposure.inputs = s.inputs := by
  refine s.recomputeExposure_records.inputs.trans (s.inputs_windows_congr ?_)
  have hbare := congrArg (List.map fun w => (w.handle, w.stance)) (s.exposeFrom_bare [] s.windows)
  rwa [List.map_map, List.map_map] at hbare

/-! Tones, the engine and the frame. -/

@[simp] theorem State.inputs_endTone (s : State) (p : Port) (reason : ToneReason) : (s.endTone p reason).inputs = s.inputs := by
  rcases s.endTone_cases p reason with ⟨-, h⟩ | ⟨u, hr, h⟩ <;> rw [h]
  exact hr.inputs.trans (s.inputs_setPort_same p _)

@[simp] theorem State.inputs_endToneIf (s : State) (p : Port) (bands : Band → Bool) (reason : ToneReason) :
    (s.endToneIf p bands reason).inputs = s.inputs := by
  unfold State.endToneIf
  split
  · rfl
  · exact State.inputs_ite _ fun _ => s.inputs_endTone p reason

@[simp] theorem State.inputs_silence (s : State) : s.silence.inputs = s.inputs :=
  State.inputs_foldl _ _ (fun s p => s.inputs_endToneIf p _ _) s

@[simp] theorem State.inputs_startTone (s : State) (p : Port) (o : ToneOperands) : (s.startTone p o).inputs = s.inputs := by
  have hbegin (u : State) : (u.beginTone p o).inputs = u.inputs :=
    u.inputs_setPort_same p { u.port p with tone := some (newTone o u.toneSeq) }
  unfold State.startTone
  simp only
  split <;> simp [hbegin]

@[simp] theorem State.inputs_arbitrate (s : State) : s.arbitrate.inputs = s.inputs := by
  rw [s.arbitrate_frame]
  rfl

@[simp] theorem State.inputs_endCommand (s : State) (p : Port) (c : QCmd) (st : Status) (res : ResultPart) (cells : Nat) :
    (s.endCommand p c st res cells).inputs = s.inputs :=
  (State.endCommand_records s p c st res cells).inputs.trans (s.inputs_setPort_same p _)

@[simp] theorem State.inputs_completeMark (s : State) (p : Port) : (s.completeMark p).inputs = s.inputs := by
  unfold State.completeMark
  refine State.inputs_ite _ fun _ => ?_
  split
  · rfl
  · exact s.inputs_endCommand p _ _ _ _

@[simp] theorem State.inputs_frameStart (s : State) : s.frameStart.inputs = s.inputs := by
  rw [s.frameStart_eq, State.inputs_arbitrate]
  exact State.inputs_foldl allPorts _ State.inputs_completeMark s.frameLatched

/-! The host links. -/

@[simp] theorem State.inputs_takeReadEvents (s : State) (p : Port) (tag : Byte) : (s.takeReadEvents p tag).inputs = s.inputs := by
  unfold State.takeReadEvents
  split
  case h_3 => exact s.inputs_setPort_same p _
  case h_4 => exact s.inputs_setPort_same p _
  all_goals exact s.inputs_nak p tag _

@[simp] theorem State.inputs_abortQueue (s : State) (p : Port) : (s.abortQueue p).inputs = s.inputs := by
  have hend : (match (s.port p).queue with
      | [] => s
      | c :: _ => (s.setPort p (s.port p).onlyHead).endCommand p c .aborted .none (s.port p).progress.cellsDone).inputs = s.inputs := by
    split
    · rfl
    · exact (State.inputs_endCommand _ p _ _ _ _).trans (s.inputs_setPort_same p _)
  unfold State.abortQueue
  split
  · rfl
  · exact s.inputs_setPort_same p _
  · exact s.inputs_setPort_same p _
  · exact hend
  · exact hend

@[simp] theorem State.inputs_takeAbort (s : State) (p : Port) (tag : Byte) : (s.takeAbort p tag).inputs = s.inputs := by
  have htaken : (s.abortTaken p tag).inputs = s.inputs :=
    (State.inputs_ack _ p tag _).trans ((State.inputs_abortQueue _ p).trans (s.inputs_setPort_same p _))
  unfold State.takeAbort
  split
  case h_3 => exact htaken
  case h_4 => exact htaken
  all_goals exact s.inputs_nak p tag _

@[simp] theorem State.inputs_takeCommand (s : State) (p : Port) (kind : CommandKind) (flags tag : Byte) (payload : List Byte) :
    (s.takeCommand p kind flags tag payload).inputs = s.inputs := by
  have henqueue : (s.enqueue p kind flags tag payload).inputs = s.inputs := by
    unfold State.enqueue
    simp only
    split
    · exact s.inputs_placeReply p _
    · split
      · exact s.inputs_nak p tag _
      · exact (State.inputs_arbitrate _).trans ((State.inputs_ack _ p tag _).trans (s.inputs_setPort_same p _))
  unfold State.takeCommand
  split
  case h_3 => exact henqueue
  all_goals exact s.inputs_nak p tag _

@[simp] theorem State.inputs_failSend (s : State) (p : Port) (reason : NakReason) (tag : Byte) :
    (s.failSend p reason tag).inputs = s.inputs := by
  refine (State.inputs_nak _ p tag reason).trans (s.inputs_setPort_same p _ ?_)
  cases reason <;> rfl

@[simp] theorem State.inputs_fetch (s : State) (p : Port) (part : FetchPart) : (s.fetch p part).inputs = s.inputs := by
  unfold State.fetch
  split
  · rfl
  · exact s.inputs_setPort_same p _ ((s.port p).fetch_keeps part).1

/-! ## Focus and capture -/

/-- Focus ends if the window of a handle holds it (R157). -/
theorem State.inputs_withdrawFocus (s : State) (h : Handle) (owner : Port) (reason : FocusReason) :
    (s.withdrawFocus h owner reason).inputs = { s.inputs with focus := if s.focus = some h then none else s.focus } :=
  (State.withdrawFocus_records s h owner reason).inputs

theorem State.InputAgrees.withdrawFocus (hs : s.InputAgrees) (h : Handle) (owner : Port) (reason : FocusReason) :
    (s.withdrawFocus h owner reason).InputAgrees := by
  refine .of_inputs ((s.inputAgrees_iff.1 hs).weakenFocus fun x hx => ?_) (s.inputs_withdrawFocus h owner reason)
  split at hx
  · cases hx
  · exact hx

theorem State.InputAgrees.releaseFocus (hs : s.InputAgrees) (p : Port) : (s.releaseFocus p).InputAgrees := by
  unfold State.releaseFocus
  split
  · exact hs
  · split
    · exact hs.withdrawFocus _ p _
    · exact hs

theorem State.permitsFocus_iff (s : State) (w : Window) : s.permitsFocus w = true ↔ w.shown = true ∧ w.keyEligible = true
    ∧ (s.port w.owner).state = .live ∧ ∀ f, s.focusWindow = some f → f.band.rank ≤ w.band.rank ∨ f.owner = w.owner := by
  unfold State.permitsFocus
  cases s.focusWindow <;> simp [and_assoc]

/-- Focus moves to a window of the table where the focus rule permits (R154). -/
theorem State.InputAgrees.moveFocus (hs : s.InputAgrees) {w : Window} (hw : s.windowOf w.handle = some w)
    (h : s.permitsFocus w = true) : (s.moveFocus w).InputAgrees := by
  obtain ⟨hshown, hkey, hlive, -⟩ := (s.permitsFocus_iff w).1 h
  have hwindow : s.inputs.window w.handle = some w.stance := (s.inputs_window_eq_some_iff _ _).2 ⟨w, hw, rfl⟩
  exact .of_inputs ((s.inputAgrees_iff.1 hs).setFocus hwindow hshown hkey hlive) (s.moveFocus_records w).inputs

/-! ## Sessions -/

/-- A port changes its state while it stays LIVE if it was and goes on taking records if it did (R139, R151, R153). -/
theorem State.InputAgrees.setPort (hs : s.InputAgrees) {r : PortRec} (hd : s.device ≠ .ready → r.state = .detached)
    (hlive : (s.port p).state = .live → r.state = .live)
    (htakes : (s.port p).state.takesRecords = true → r.state.takesRecords = true) : (s.setPort p r).InputAgrees := by
  have hkeep (q : Port) (h : (s.port q).state = .live) : (if q = p then r.state else (s.port q).state) = .live := by
    split
    · rename_i hq
      exact hlive (hq ▸ h)
    · exact h
  refine .of_inputs ((s.inputAgrees_iff.1 hs).setStates (d := s.device) (st := fun q => if q = p then r.state else (s.port q).state)
    (fun hr q => ?_) (fun _ v _ _ => hkeep v.owner) (fun _ o _ => hkeep o) fun _ _ _ q _ h => ?_) (s.inputs_setPort p r)
  · split
    · exact hd hr
    · exact hs.quietStart hr q
  · split
    · rename_i hq
      exact htakes (hq ▸ h)
    · exact h

/-- On a READY device a port may become LIVE. -/
theorem State.InputAgrees.setPort_live (hs : s.InputAgrees) {r : PortRec} (hd : s.device = .ready) (hr : r.state = .live) :
    (s.setPort p r).InputAgrees :=
  hs.setPort (absurd hd ·) (fun _ => hr) fun _ => by rw [hr]; rfl

/-- The windows of a port that lapses or closes lose focus and capture (R145, R151, R157). -/
def Inputs.without (p : Port) (i : Inputs) : Inputs :=
  { i with
    focus := if (i.focus.bind i.window).map Stance.owner = some p then none else i.focus
    capture := match i.capture with | .captured h o => if o = p then .orphan else .captured h o | c => c }

theorem Inputs.without_focus {h : Handle} {v : Stance} (hf : (i.without p).focus = some h) (hv : i.window h = some v) :
    i.focus = some h ∧ v.owner ≠ p := by
  unfold Inputs.without at hf
  simp only at hf
  split at hf
  · cases hf
  · rename_i hne
    refine ⟨hf, fun ho => hne ?_⟩
    simp [hf, hv, ho]

theorem Inputs.without_capture {h : Handle} {o : Port} (hc : (i.without p).capture = .captured h o) :
    i.capture = .captured h o ∧ o ≠ p := by
  unfold Inputs.without at hc
  simp only at hc
  split at hc
  · split at hc
    · cases hc
    · rename_i hcap hne
      cases hc
      exact ⟨hcap, hne⟩
  · rename_i hnot
    exact absurd hc (hnot h o)

/-- What the port lets go of leaves the rest in agreement, and then neither focus nor capture relies on the port. -/
theorem Inputs.Agree.without (hi : i.Agree) (p : Port) : (i.without p).Agree := by
  refine (hi.weakenFocus (f := (i.without p).focus) fun h hh => ?_).weakenCapture (c := (i.without p).capture)
    fun h o hh => (Inputs.without_capture hh).1
  unfold Inputs.without at hh
  simp only at hh
  split at hh
  · cases hh
  · exact hh

/-- A port whose windows have let go of focus and capture takes any state that its key captures allow. -/
theorem Inputs.Agree.leave (hi : i.Agree) {p : Port} {st : PortState} (hd : i.device ≠ .ready → st = .detached)
    (hkey : ∀ k c, (i.key k).capture = some c → p ∈ c.ports → st.takesRecords = true) :
    Inputs.Agree { i.without p with state := fun q => if q = p then st else i.state q } := by
  refine (hi.without p).setStates (d := i.device) (fun hr q => ?_) (fun h v hf hv hlive => ?_) (fun h o hc hlive => ?_)
    fun k c hc q hq htakes => ?_
  · split
    · exact hd hr
    · exact hi.quietStart hr q
  · exact (if_neg (Inputs.without_focus hf hv).2).trans hlive
  · exact (if_neg (Inputs.without_capture hc).2).trans hlive
  · split
    · rename_i hqp
      exact hkey k c hc (hqp ▸ hq)
    · exact htakes

theorem State.inputs_focusOwner (s : State) : (s.inputs.focus.bind s.inputs.window).map Stance.owner = s.focusOwner := by
  unfold State.focusOwner
  cases hf : s.focus with
  | none => simp [State.inputs, hf]
  | some h => cases hw : s.windowOf h <;> simp [State.inputs, hf, hw, Window.stance]

/-- A lapse: the port LAPSED, focus and capture gone from its windows (R111). -/
theorem State.inputs_lapse (s : State) (p : Port) :
    (s.lapse p).inputs = { s.inputs.without p with state := fun q => if q = p then .lapsed else (s.port q).state } := by
  have hstate : ((s.lapsedPort p).endBase s.timeBase).state = .lapsed := by rw [s.endBase_lapsedPort_only p]
  have hinput : (s.lapsedInput p).inputs = s.inputs.without p := by
    rw [Inputs.without, State.inputs_focusOwner]
    rfl
  have hlapsed : (s.lapsed p).inputs
      = { s.inputs.without p with state := fun q => if q = p then .lapsed else (s.port q).state } := by
    rw [State.lapsed, State.inputs_setPort, hinput, hstate]
    rfl
  rw [s.lapse_eq, State.inputs_recomputeExposure, s.lapsed_sound]
  exact hlapsed

theorem State.InputAgrees.lapse (hs : s.InputAgrees) (h : (s.port p).state ≠ .detached) : (s.lapse p).InputAgrees :=
  .of_inputs ((s.inputAgrees_iff.1 hs).leave (fun hr => absurd (hs.quietStart hr p) h) fun _ _ _ _ => rfl) (s.inputs_lapse p)

theorem State.inputs_closingExposure (s : State) (p : Port) : (s.closingExposure p).inputs.window = s.inputs.window
    ∧ ∀ q, q ≠ p → ((s.closingExposure p).port q).state = (s.port q).state := by
  unfold State.closingExposure
  split
  · refine ⟨?_, fun q hq => ?_⟩
    · rw [State.inputs_recomputeExposure, State.inputs_setPort]
    · rw [(State.recomputeExposure_keeps _ q).1, State.port_setPort_ne _ _ hq]
  · exact ⟨rfl, fun _ _ => rfl⟩

/-- An entry to CLOSING: the port leaves every key capture, and its windows let go of focus and capture (R116). -/
theorem State.inputs_enterClosing (s : State) (p : Port) : (s.enterClosing p).inputs
    = { Inputs.without p { s.inputs with key := fun k => KeyRec.dropPort p (s.key k) } with
        state := fun q => if q = p then ((s.enterClosing p).port p).state else (s.port q).state } := by
  have h := s.enterClosing_closes p
  obtain ⟨hwindow, hothers⟩ := s.inputs_closingExposure p
  have hstate : (fun q => ((s.enterClosing p).port q).state)
      = fun q => if q = p then ((s.enterClosing p).port p).state else (s.port q).state := by
    funext q
    split
    · rename_i hq
      rw [hq]
    · rename_i hq
      rw [h.others q hq, hothers q hq]
  have hstances : stanceIn (s.enterClosing p).windows = s.inputs.window := by
    rw [h.windows, ← hwindow]
    refine stanceIn_congr ?_
    rw [List.map_map]
    refine List.map_congr_left fun w _ => ?_
    simp only [Function.comp_apply]
    split <;> rfl
  have hfocus : (s.enterClosing p).focus = if s.focusOwner = some p then none else s.focus := h.focus
  have hmk : (s.enterClosing p).inputs = ⟨(s.enterClosing p).device, fun q => ((s.enterClosing p).port q).state,
    stanceIn (s.enterClosing p).windows, (s.enterClosing p).focus, (s.enterClosing p).capture, (s.enterClosing p).key⟩ := rfl
  rw [hmk, h.panel.1, hstate, hstances, hfocus, h.capture, funext h.keys, ← s.inputs_focusOwner]
  rfl

theorem KeyRec.Agrees.dropPort {st : Port → PortState} {q : KeyRec} (h : q.Agrees st) (p : Port) : (KeyRec.dropPort p q).Agrees st := by
  refine ⟨fun c hc r hr => ?_, (Option.isSome_map ..).trans h.capture, h.up, h.count⟩
  obtain ⟨c', hc', rfl⟩ := Option.map_eq_some_iff.1 hc
  exact h.ports c' hc' r (List.mem_filter.1 hr).1

theorem State.InputAgrees.enterClosing (hs : s.InputAgrees) (h : (s.port p).state ≠ .detached) : (s.enterClosing p).InputAgrees := by
  have hkeys := (s.inputAgrees_iff.1 hs).setKeys (ks := fun k => KeyRec.dropPort p (s.key k)) fun k hk => hk.dropPort p
  refine .of_inputs (hkeys.leave (fun hr => absurd (hs.quietStart hr p) h) fun k c hc hp => ?_) (s.inputs_enterClosing p)
  obtain ⟨c', -, rfl⟩ := Option.map_eq_some_iff.1 hc
  simp at hp

/-- A CLOSING port may become DETACHED: neither focus nor a capture relies on it. -/
theorem State.InputAgrees.completeTeardown (hs : s.InputAgrees) (h : (s.port p).state = .closing) :
    (s.completeTeardown p).InputAgrees := by
  rcases s.completeTeardown_cases p with ⟨-, hr⟩ | ⟨-, hr⟩ <;> rw [hr]
  · exact hs
  · exact hs.setPort (fun _ => rfl) (fun hl => by rw [h] at hl; cases hl) fun ht => by rw [h] at ht; cases ht

theorem State.inputs_ungrant (s : State) (p : Port) : ({ s with windows := s.windows.map (Window.ungrant p) } : State).inputs = s.inputs :=
  s.inputs_windows_congr (by rw [List.map_map]; rfl)

theorem State.InputAgrees.teardownNotice (hs : s.InputAgrees) (h : (s.port p).state = .closing) : (s.teardownNotice p).InputAgrees :=
  State.InputAgrees.completeTeardown (hs.congr (s.inputs_ungrant p)) h

/-! ## Removals -/

theorem stanceIn_takeOut (ws : List Window) (h x : Handle) : stanceIn (takeOut h ws) x = if x = h then none else stanceIn ws x := by
  induction ws with
  | nil => simp [stanceIn, takeOut]
  | cons w ws ih =>
    have hcons : takeOut h (w :: ws) = if w.handle = h then takeOut h ws else w :: takeOut h ws := by
      unfold takeOut
      rw [List.filter_cons]
      by_cases hw : w.handle = h <;> simp [hw]
    rw [hcons, stanceIn_cons]
    split
    · rename_i hw
      rw [ih]
      split
      · rfl
      · rename_i hx
        rw [if_neg fun e => hx (e.symm.trans hw)]
    · rename_i hw
      rw [stanceIn_cons, ih]
      split
      · rename_i hx
        rw [if_neg fun e => hw (hx.trans e)]
      · rfl

/-- A removed window holds neither focus nor capture (R144, R157). -/
theorem State.InputAgrees.removeWindow (hs : s.InputAgrees) (w : Window) : (s.removeWindow w).InputAgrees := by
  obtain ⟨u, c, hc, hr, h⟩ := s.removeWindow_cases w
  have hremoved (f : Option Handle) : (s.removed w f c).inputs
      = { s.inputs with window := stanceIn (takeOut w.handle s.windows), focus := f, capture := c } :=
    State.inputs_setPort_same { s with
      windows := takeOut w.handle s.windows, retiring := s.retiring ++ w.stripMap
      generations := (s.bumpGeneration w.handle.slot).generations, focus := f, capture := c } w.owner _
  have hwindow (x : Handle) (v : Stance) (hx : x ≠ w.handle) (hv : s.inputs.window x = some v) :
      stanceIn (takeOut w.handle s.windows) x = some v := by
    rw [stanceIn_takeOut, if_neg hx]
    exact hv
  have hfocus : Inputs.Agree { s.inputs with focus := if s.focus = some w.handle then none else s.focus } :=
    (s.inputAgrees_iff.1 hs).weakenFocus fun x hx => (Option.ite_none_left_eq_some.1 hx).2
  have hcapture : Inputs.Agree { s.inputs with focus := if s.focus = some w.handle then none else s.focus, capture := c } := by
    refine hfocus.weakenCapture fun x o hx => ?_
    rcases hc with ⟨-, rfl⟩ | ⟨-, rfl⟩
    · cases hx
    · exact hx
  rw [h]
  refine State.InputAgrees.congr (.of_inputs (hcapture.setWindows (fun x v hx hv _ _ => hwindow x v ?_ hv)
    fun x o v hx hv => ⟨v, hwindow x v ?_ hv, rfl⟩) (hr.inputs.trans (hremoved _))) u.inputs_recomputeExposure
  · rintro rfl
    obtain ⟨hne, hx⟩ := Option.ite_none_left_eq_some.1 (hx : (if s.focus = some w.handle then none else s.focus) = some w.handle)
    exact hne hx
  · rintro rfl
    rcases hc with ⟨-, rfl⟩ | ⟨hnone, rfl⟩
    · cases hx
    · exact hnone o hx

theorem State.InputAgrees.teardownStep (hs : s.InputAgrees) (h : s.tearingDown p = true) : (s.teardownStep p).InputAgrees := by
  obtain ⟨hc, -⟩ := (s.tearingDown_iff p).1 h
  unfold State.teardownStep
  split
  · exact hs
  · rename_i w _
    refine (hs.removeWindow w).completeTeardown ?_
    rw [(s.removeWindow_keeps w p).1, hc]

theorem State.InputAgrees.takeWaitingRemoval (hs : s.InputAgrees) : s.takeWaitingRemoval.InputAgrees := by
  have hclear : State.InputAgrees { s with waitingRemoval := none } := hs.congr rfl
  rcases s.takeWaitingRemoval_cases with ⟨-, h⟩ | ⟨p, -, h⟩ <;> rw [h]
  · exact hs
  · split
    · exact hclear.teardownStep ‹_›
    · exact hclear

/-! ## Slices -/

/-- Whatever a slice's work has left, its end keeps the agreement: a CLOSING port ends its teardown, and any other goes on. -/
theorem State.InputAgrees.finishSlice {e : SliceEnd} (hs : e.state.InputAgrees) (p : Port) (c : QCmd) :
    (Machine.finishSlice p c e).InputAgrees := by
  have hgiven (v : State) (hv : v.InputAgrees) : (e.given p c v).InputAgrees := by
    unfold SliceEnd.given
    split
    · rename_i hc
      refine State.InputAgrees.teardownNotice (hv.congr (v.inputs_setPort_same p _)) ?_
      exact (congrArg PortRec.state (v.port_setPort_self p _)).trans hc
    · split
      · exact hv.congr (v.inputs_endCommand p c _ _ _)
      · split
        · exact hv.congr (v.inputs_endCommand p c _ _ _)
        · exact hv.congr (v.inputs_setPort_same p _)
        · exact hv.congr (v.inputs_setPort_same p _)
  rw [finishSlice_eq]
  exact ((hgiven { e.state with slice := none } (hs.congr rfl)).congr (State.inputs_arbitrate _)).takeWaitingRemoval

theorem State.InputAgrees.runSlice {k : CommandKind} {work : QCmd → State → SliceEnd} (hs : s.InputAgrees)
    (h : ∀ c, (work c s).state.InputAgrees) : (s.runSlice p k work).InputAgrees := by
  rcases s.runSlice_cases p k work with hr | ⟨c, -, -, hr⟩ <;> rw [hr]
  · exact hs
  · refine State.InputAgrees.finishSlice ?_ p c
    split
    · exact hs
    · exact h c

theorem State.InputAgrees.oneSlice {e : Effect} (hs : s.InputAgrees) (h : ∀ s' res, e = .ok (s', res) → s'.InputAgrees) :
    (Machine.oneSlice s e).state.InputAgrees := by
  cases e with
  | error st => exact hs
  | ok r => exact h _ _ rfl

/-- The slice of a command that names its port's own window has its effect on the window that the handle names (R20). -/
theorem State.InputAgrees.ownWindow {c : QCmd} {j n : Nat} {effect : Window → Effect} (hs : s.InputAgrees)
    (h : ∀ w, s.windowOf w.handle = some w → ∀ s' res, effect w = .ok (s', res) → s'.InputAgrees) :
    (Machine.oneSlice s (ownWindowAt s p c j n effect)).state.InputAgrees := by
  refine hs.oneSlice fun s' res he => ?_
  rcases ownWindowAt_cases s p c j n effect with ⟨-, hr⟩ | ⟨w, hw, ⟨-, hr⟩ | ⟨-, -, hr⟩ | ⟨-, -, hr⟩⟩ <;> rw [hr] at he
  · cases he
  · cases he
  · cases he
  · have hhandle : (w.handle == handleAt c.payload j) = true := List.find?_some (p := fun x : Window => x.handle == _) hw
    exact h w (eq_of_beq hhandle ▸ hw) s' res he

theorem State.InputAgrees.ownDrawing {c : QCmd} {work : Progress → Window → SliceEnd} (hs : s.InputAgrees)
    (h : ∀ pr w, (work pr w).state.inputs = s.inputs) : (Machine.ownDrawing s p c work).state.InputAgrees := by
  unfold Machine.ownDrawing
  simp only
  split
  · exact hs
  · exact hs.congr (h _ _)

/-! ## The window commands -/

/-- A window changed in place: a lookup by its handle finds what it becomes, and every other finds what it found. -/
theorem stanceIn_map {g : Window → Window} (hg : ∀ w, (g w).handle = w.handle) (ws : List Window) (h x : Handle) :
    stanceIn (ws.map fun w => if w.handle = h then g w else w) x
      = if x = h then (ws.find? fun w => w.handle == h).map fun w => (g w).stance else stanceIn ws x := by
  induction ws with
  | nil => simp [stanceIn]
  | cons w ws ih =>
    rw [List.map_cons, stanceIn_cons, ih, stanceIn_cons, List.find?_cons]
    by_cases hw : w.handle = h
    · by_cases hx : x = h
      · simp [hw, hx, hg]
      · simp [hw, hx, hg, Ne.symm hx]
    · by_cases hx : x = h
      · simp [hx, hw, beq_eq_false_iff_ne.2 hw]
      · simp [hx, hw]

/-- A window of the table changed in place. -/
theorem State.inputs_updateWindow (s : State) {w : Window} (hw : s.windowOf w.handle = some w) {g : Window → Window}
    (hg : ∀ w, (g w).handle = w.handle) : (s.updateWindow w.handle g).inputs
      = { s.inputs with window := fun x => if x = w.handle then some (g w).stance else s.inputs.window x } := by
  refine congrArg (fun f => { s.inputs with window := f }) (funext fun x => (stanceIn_map hg s.windows w.handle x).trans ?_)
  rw [State.windows_find, hw]
  rfl

/-- A window changed in place in fields other than its handle and its stance. -/
theorem State.inputs_updateFields (s : State) (h : Handle) (g : Window → Window)
    (hg : ∀ w, ((g w).handle, (g w).stance) = (w.handle, w.stance) := by exact fun _ => rfl) :
    (s.updateWindow h g).inputs = s.inputs := by
  refine s.inputs_windows_congr ?_
  rw [List.map_map]
  refine List.map_congr_left fun w _ => ?_
  simp only [Function.comp_apply]
  split
  · exact hg w
  · rfl

/-- One window changes, its owner's still, and shown and key-eligible still where it has focus. -/
theorem Inputs.Agree.setWindow (hi : i.Agree) {h : Handle} {v v' : Stance} (hv : i.window h = some v) (howner : v'.owner = v.owner)
    (hkeep : i.focus = some h → v.shown = true → v.keyEligible = true → v'.shown = true ∧ v'.keyEligible = true) :
    Inputs.Agree { i with window := fun x => if x = h then some v' else i.window x } := by
  have hfound {x : Handle} {y : Stance} (hx : x = h) (hy : i.window x = some y) : v = y := Option.some.inj (hv.symm.trans (hx ▸ hy))
  refine hi.setWindows (fun x y hx hy hshown hkey => ?_) fun x o y hx hy => ?_
  · split
    · rename_i hxh
      obtain rfl := hfound hxh hy
      obtain ⟨hshown', hkey'⟩ := hkeep (hxh ▸ hx) hshown hkey
      cases v
      cases v'
      simp_all
    · exact hy
  · split
    · rename_i hxh
      obtain rfl := hfound hxh hy
      exact ⟨v', rfl, howner⟩
    · exact ⟨y, hy, rfl⟩

/-- A window of the table changed in place, its owner's still, and shown and key-eligible still if it was. -/
theorem State.InputAgrees.updateWindow (hs : s.InputAgrees) {w : Window} (hw : s.windowOf w.handle = some w) (g : Window → Window)
    (hg : ∀ w, (g w).handle = w.handle) (howner : (g w).owner = w.owner)
    (hkeep : w.shown = true → w.keyEligible = true → (g w).shown = true ∧ (g w).keyEligible = true) :
    (s.updateWindow w.handle g).InputAgrees :=
  .of_inputs ((s.inputAgrees_iff.1 hs).setWindow ((s.inputs_window_eq_some_iff _ _).2 ⟨w, hw, rfl⟩) (v' := (g w).stance) howner
    fun _ => hkeep) (s.inputs_updateWindow hw hg)

/-- A window of the table changed in place, its owner's still, and focus withdrawn from it. -/
theorem State.InputAgrees.updateWithdraw (hs : s.InputAgrees) {w : Window} (hw : s.windowOf w.handle = some w) (g : Window → Window)
    (hg : ∀ w, (g w).handle = w.handle) (howner : (g w).owner = w.owner) (reason : FocusReason) :
    ((s.updateWindow w.handle g).withdrawFocus w.handle w.owner reason).InputAgrees := by
  have hfocus : Inputs.Agree { s.inputs with focus := if s.focus = some w.handle then none else s.focus } :=
    (s.inputAgrees_iff.1 hs).weakenFocus fun x hx => (Option.ite_none_left_eq_some.1 hx).2
  refine .of_inputs (hfocus.setWindow ((s.inputs_window_eq_some_iff _ _).2 ⟨w, hw, rfl⟩) (v' := (g w).stance) howner fun h => ?_) ?_
  · obtain ⟨hne, hx⟩ := Option.ite_none_left_eq_some.1 h
    exact absurd hx hne
  · rw [State.inputs_withdrawFocus, s.inputs_updateWindow hw hg]
    rfl

theorem State.InputAgrees.setModes (hs : s.InputAgrees) {w : Window} (hw : s.windowOf w.handle = some w) (o : ModeOperands) :
    (s.setModes w o).InputAgrees := by
  have hset : State.InputAgrees (if (w.withModes o).keyEligible then s.updateWindow w.handle (fun w => w.withModes o)
      else (s.updateWindow w.handle (fun w => w.withModes o)).withdrawFocus w.handle w.owner .modes) := by
    split
    · exact hs.updateWindow hw _ (fun _ => rfl) rfl fun hshown _ => ⟨hshown, ‹_›⟩
    · exact hs.updateWithdraw hw (fun w => w.withModes o) (fun _ => rfl) rfl _
  unfold State.setModes
  simp only
  split
  · exact hset.congr (State.inputs_recomputeExposure _)
  · exact hset

/-- A window put into the stack is found by its handle, and every other as before. -/
theorem stanceIn_insert {w : Window} (a b : List Window) (h : ∀ x ∈ a, x.handle ≠ w.handle) (x : Handle) :
    stanceIn (a ++ w :: b) x = if x = w.handle then some w.stance else stanceIn (a ++ b) x := by
  induction a with
  | nil => simp [stanceIn_cons, eq_comm]
  | cons y a ih =>
    have hy : y.handle ≠ w.handle := h y List.mem_cons_self
    rw [List.cons_append, List.cons_append, stanceIn_cons, stanceIn_cons, ih fun z hz => h z (List.mem_cons_of_mem _ hz)]
    split
    · rename_i hx
      rw [if_neg fun e => hy (hx.trans e)]
    · rfl

theorem insertTop_split (w : Window) (ws : List Window) : ∃ a b, ws = a ++ b ∧ insertTop w ws = a ++ w :: b := by
  induction ws with
  | nil => exact ⟨[], [], rfl, rfl⟩
  | cons x xs ih =>
    obtain ⟨a, b, hab, hins⟩ := ih
    unfold insertTop
    split
    · exact ⟨x :: a, b, by rw [hab]; rfl, by rw [hins]; rfl⟩
    · exact ⟨[], x :: xs, rfl, rfl⟩

theorem insertBottom_split (w : Window) (ws : List Window) : ∃ a b, ws = a ++ b ∧ insertBottom w ws = a ++ w :: b := by
  induction ws with
  | nil => exact ⟨[], [], rfl, rfl⟩
  | cons x xs ih =>
    obtain ⟨a, b, hab, hins⟩ := ih
    unfold insertBottom
    split
    · exact ⟨[], x :: xs, rfl, rfl⟩
    · exact ⟨x :: a, b, by rw [hab]; rfl, by rw [hins]; rfl⟩

/-- A window of the table taken out and put back elsewhere with its stance. -/
theorem State.inputs_restack (s : State) {w y : Window} (hw : s.windowOf w.handle = some w) (hh : y.handle = w.handle)
    (hy : y.stance = w.stance) {l : List Window} (hl : ∃ a b, takeOut w.handle s.windows = a ++ b ∧ l = a ++ y :: b) :
    ({ s with windows := l } : State).inputs = s.inputs := by
  obtain ⟨a, b, hout, rfl⟩ := hl
  have hne : ∀ x ∈ a, x.handle ≠ y.handle := fun x hx => by
    have hmem : x ∈ takeOut w.handle s.windows := hout ▸ List.mem_append_left b hx
    simpa [hh] using (List.mem_filter.1 hmem).2
  refine congrArg (fun f => { s.inputs with window := f }) (funext fun x => (stanceIn_insert a b hne x).trans ?_)
  rw [← hout, stanceIn_takeOut, hh, hy]
  split
  · rename_i hx
    rw [hx]
    exact ((s.inputs_window_eq_some_iff _ _).2 ⟨w, hw, rfl⟩).symm
  · rfl

/-- A new window stands in a slot of its own, so every lookup that found a window finds the same one (R19, R28). -/
theorem State.InputAgrees.createWindow (hs : s.InputAgrees) {c : QCmd} {s' : State} {res : ResultPart}
    (h : s.createWindow p c = .ok (s', res)) : s'.InputAgrees := by
  rcases s.createWindow_cases p c with ⟨st, hr⟩ | ⟨o, slot, -, hallowed, hr⟩ <;> rw [hr] at h <;> cases h
  obtain ⟨⟨-, -, hfree⟩, -⟩ := (s.freeSlot_eq_some_iff slot).1 hallowed.free
  obtain ⟨a, b, hab, hins⟩ := insertTop_split (newWindow ⟨slot, s.generationOf slot⟩ p o (s.available.take (stripsOf o.sc o.sr)))
    s.windows
  have hne : ∀ x ∈ a, x.handle ≠ ⟨slot, s.generationOf slot⟩ := fun x hx he =>
    hfree x (hab ▸ List.mem_append_left b hx) (congrArg Handle.slot he)
  have hkept (x : Handle) (v : Stance) (hv : s.inputs.window x = some v) : stanceIn (insertTop
      (newWindow ⟨slot, s.generationOf slot⟩ p o (s.available.take (stripsOf o.sc o.sr))) s.windows) x = some v := by
    rw [hins, stanceIn_insert a b hne, ← hab, if_neg]
    · exact hv
    · rintro rfl
      obtain ⟨w, hw, -⟩ := (s.inputs_window_eq_some_iff _ v).1 hv
      have hhandle : (w.handle == _) = true := List.find?_some (p := fun x : Window => x.handle == _) hw
      exact hfree w (State.mem_of_windowOf hw) (congrArg Handle.slot (eq_of_beq hhandle))
  have hcreated : (s.created p slot o).inputs = { s.inputs with window := stanceIn (insertTop
      (newWindow ⟨slot, s.generationOf slot⟩ p o (s.available.take (stripsOf o.sc o.sr))) s.windows) } :=
    State.inputs_setPort_same _ p _
  exact State.InputAgrees.congr (.of_inputs ((s.inputAgrees_iff.1 hs).setWindows (fun x v _ hv _ _ => hkept x v hv)
    fun x _ v _ hv => ⟨v, hkept x v hv, rfl⟩) hcreated) (State.inputs_recomputeExposure _)

theorem State.InputAgrees.placeWindow (hs : s.InputAgrees) {s' : State} {c : QCmd} {w : Window} {res : ResultPart}
    (h : s.placeWindow c w = .ok (s', res)) : s'.InputAgrees := by
  unfold State.placeWindow at h
  simp only at h
  split at h <;> cases h
  exact hs.congr ((State.inputs_recomputeExposure _).trans (s.inputs_updateFields _ _))

theorem State.InputAgrees.setBand (hs : s.InputAgrees) {s' : State} {c : QCmd} {w : Window} {res : ResultPart}
    (hw : s.windowOf w.handle = some w) (h : s.setBand p c w = .ok (s', res)) : s'.InputAgrees := by
  unfold State.setBand at h
  split at h
  · cases h
  · rename_i b _
    split at h <;> cases h
    exact hs.congr ((State.inputs_recomputeExposure _).trans
      (s.inputs_restack (y := { w with band := b }) hw rfl rfl (insertTop_split _ _)))

theorem State.InputAgrees.grantRead (hs : s.InputAgrees) {s' : State} {c : QCmd} {w : Window} {res : ResultPart}
    (h : s.grantRead c w = .ok (s', res)) : s'.InputAgrees := by
  unfold State.grantRead at h
  split at h
  · cases h
  · split at h
    · cases h
    · split at h
      · cases h
      · split at h <;> cases h
        · exact hs
        · exact hs.congr (s.inputs_updateFields _ _)

theorem State.InputAgrees.requestFocus (hs : s.InputAgrees) {s' : State} {w : Window} {res : ResultPart}
    (hw : s.windowOf w.handle = some w) (h : s.requestFocus w = .ok (s', res)) : s'.InputAgrees := by
  unfold State.requestFocus at h
  split at h
  · cases h
    exact hs
  · split at h <;> cases h
    exact hs.moveFocus hw ‹_›

/-! ## Text and drawing -/

theorem State.inputs_writeText (s : State) (pr : Progress) (w : Window) (items : List TextItem) :
    (s.writeText pr w items).state.inputs = s.inputs := by
  have hwrite (m : Memory) (col row : Nat) : ({ s with memory := m }.updateWindow w.handle
      (fun x => { x with curCol := col, curRow := row })).inputs = s.inputs :=
    State.inputs_updateFields { s with memory := m } w.handle _
  unfold State.writeText
  simp only
  split <;> exact hwrite _ _ _

theorem State.inputs_rectSlice (s : State) (pr : Progress) (backward : Bool) (area : Nat) (write : Memory → Nat → Memory) :
    (s.rectSlice pr backward area write).state.inputs = s.inputs := by
  unfold State.rectSlice
  simp only
  split <;> rfl

/-- The same after a check of its rectangle. -/
theorem State.inputs_rectSlice_ite (s : State) (pr : Progress) (backward : Bool) (area : Nat) (write : Memory → Nat → Memory)
    (fits : Bool) (st : Status) (cells : Nat) :
    (if fits then s.rectSlice pr backward area write else .ended st .none cells s).state.inputs = s.inputs := by
  split
  · exact s.inputs_rectSlice pr backward area write
  · rfl

theorem State.inputs_copyWork (s : State) (p : Port) (c : QCmd) : (Machine.copyWork p c s).state.inputs = s.inputs := by
  unfold Machine.copyWork
  split
  · rfl
  · split
    · rfl
    · unfold State.copySlice
      exact s.inputs_rectSlice _ _ _ _

/-! ## The links -/

theorem State.InputAgrees.takeAttach (hs : s.InputAgrees) (hd : s.device = .ready) (p : Port) (tag : Byte) :
    (s.takeAttach p tag).InputAgrees := by
  unfold State.takeAttach
  split
  case h_2 => exact (hs.setPort_live hd rfl).congr (State.inputs_ack _ p tag _)
  all_goals exact hs.congr (s.inputs_nak p tag _)

theorem State.InputAgrees.takeRenew (hs : s.InputAgrees) (hd : s.device = .ready) (p : Port) (tag : Byte) :
    (s.takeRenew p tag).InputAgrees := by
  have hrenew (n : Nat) : (s.setPort p ((s.port p).renewLease n)).InputAgrees := hs.setPort_live hd rfl
  unfold State.takeRenew
  simp only
  split
  case h_3 => exact (hrenew _).congr (State.inputs_ack _ p tag _)
  case h_4 =>
    exact (hrenew _).congr
      (((State.inputs_arbitrate _).trans (State.inputs_ack _ p tag _)).trans (State.inputs_recomputeExposure _))
  all_goals exact hs.congr (s.inputs_nak p tag _)

theorem State.InputAgrees.takeDetach (hs : s.InputAgrees) (p : Port) (tag : Byte) : (s.takeDetach p tag).InputAgrees := by
  unfold State.takeDetach
  simp only
  split
  case h_3 h => exact (hs.enterClosing (by rw [h]; decide)).congr (State.inputs_ack _ p tag _)
  case h_4 h => exact (hs.enterClosing (by rw [h]; decide)).congr (State.inputs_ack _ p tag _)
  case h_5 => exact hs.congr (s.inputs_ack p tag _)
  all_goals exact hs.congr (s.inputs_nak p tag _)

theorem State.InputAgrees.answer (hs : s.InputAgrees) (p : Port) (tag : Byte) (hu : s.device = .ready → u.InputAgrees) :
    (s.answer p tag u).InputAgrees := by
  unfold State.answer
  split
  · exact hs
  · exact hs.congr (s.inputs_nak p tag _)
  · exact hu ‹_›

theorem State.InputAgrees.takeFrame (hs : s.InputAgrees) (p : Port) (kind : FrameKind) (flags tag : Byte) (payload : List Byte) :
    (s.takeFrame p kind flags tag payload).InputAgrees := by
  refine hs.answer p tag fun hd => ?_
  cases kind with
  | attach => exact hs.takeAttach hd p tag
  | detach => exact hs.takeDetach p tag
  | renew => exact hs.takeRenew hd p tag
  | readEvents => exact hs.congr (s.inputs_takeReadEvents p tag)
  | status => exact hs.congr (s.inputs_ack p tag _)
  | abort => exact hs.congr (s.inputs_takeAbort p tag)
  | queued k => exact hs.congr (s.inputs_takeCommand p k flags tag payload)

theorem State.InputAgrees.send (hs : s.InputAgrees) (p : Port) (bytes : List Byte) : (s.send p bytes).InputAgrees := by
  unfold State.send
  split
  · exact hs
  · split
    · exact hs.congr (s.inputs_failSend p _ _)
    · exact hs.takeFrame p _ _ _ _

theorem State.InputAgrees.transaction (hs : s.InputAgrees) (p : Port) (bytes : List Byte) : (s.transaction p bytes).InputAgrees := by
  rcases s.transaction_cases p bytes with ⟨rest, -, h⟩ | ⟨rest, -, h⟩ | ⟨-, -, h⟩ <;> rw [h]
  · exact hs.send p rest
  · exact hs.congr (s.inputs_fetch p _)
  · split
    · exact hs
    · exact hs.congr (s.inputs_setPort_same p _)

/-! ## The hit test (R140) -/

/-- The hit test passes over windows whose touch mode is PASS, and the first other one takes the press if it is still in the table,
takes touch and its owner is LIVE. -/
theorem State.hitSearch_eq_some_iff (s : State) (ls : List LatchedWindow) (w : Window) : s.hitSearch ls = some w ↔
    ∃ above l below, ls = above ++ l :: below ∧ (∀ a ∈ above, ∃ x, s.windowOf a.handle = some x ∧ x.touchMode = .pass)
      ∧ s.windowOf l.handle = some w ∧ w.touchMode = .take ∧ (s.port w.owner).state = .live := by
  induction ls with
  | nil => simp [State.hitSearch]
  | cons l ls ih =>
    unfold State.hitSearch
    constructor
    · intro h
      split at h
      · cases h
      · rename_i x hx
        split at h
        · rename_i hpass
          obtain ⟨above, l', below, rfl, habove, hl'⟩ := ih.1 h
          refine ⟨l :: above, l', below, rfl, fun a ha => ?_, hl'⟩
          rcases List.mem_cons.1 ha with rfl | ha
          · exact ⟨x, hx, hpass⟩
          · exact habove a ha
        · cases h
        · rename_i htake
          obtain ⟨hlive, hxw⟩ := Option.ite_none_right_eq_some.1 h
          cases hxw
          exact ⟨[], l, ls, rfl, nofun, hx, htake, hlive⟩
    · rintro ⟨above, l', below, hls, habove, hw, htake, hlive⟩
      cases above with
      | nil =>
        obtain ⟨rfl, rfl⟩ := List.cons.inj hls
        simp [hw, htake, hlive]
      | cons a above =>
        obtain ⟨rfl, rfl⟩ := List.cons.inj hls
        obtain ⟨x, hx, hpass⟩ := habove l List.mem_cons_self
        simp only [hx, hpass]
        exact ih.2 ⟨above, l', below, rfl, fun b hb => habove b (List.mem_cons_of_mem _ hb), hw, htake, hlive⟩

/-- The window that takes a press is the table's window of its handle, of a LIVE port. -/
theorem State.hitTest_some {s : State} {q : Pixel} {w : Window} (h : s.hitTest q = some w) :
    s.windowOf w.handle = some w ∧ (s.port w.owner).state = .live := by
  unfold State.hitTest at h
  split at h
  · cases h
  · obtain ⟨-, l, -, -, -, hw, -, hlive⟩ := (s.hitSearch_eq_some_iff _ w).1 h
    have hhandle : (w.handle == l.handle) = true := List.find?_some (p := fun x : Window => x.handle == _) hw
    exact ⟨eq_of_beq hhandle ▸ hw, hlive⟩

/-! ## Touch -/

theorem State.InputAgrees.orphan (hs : s.InputAgrees) : State.InputAgrees { s with capture := .orphan } :=
  .of_inputs ((s.inputAgrees_iff.1 hs).weakenCapture (c := .orphan) nofun) rfl

theorem State.InputAgrees.uncaptured (hs : s.InputAgrees) : State.InputAgrees { s with capture := .idle } :=
  .of_inputs ((s.inputAgrees_iff.1 hs).weakenCapture (c := .idle) nofun) rfl

theorem State.InputAgrees.routePress (hs : s.InputAgrees) (q : Pixel) : (s.routePress q).InputAgrees := by
  unfold State.routePress
  split
  · exact hs.orphan
  · rename_i w hhit
    obtain ⟨hw, hlive⟩ := State.hitTest_some hhit
    have hcaptured : State.InputAgrees { s with capture := .captured w.handle w.owner } :=
      .of_inputs ((s.inputAgrees_iff.1 hs).setCapture ((s.inputs_window_eq_some_iff _ _).2 ⟨w, hw, rfl⟩) hlive) rfl
    have htold := hcaptured.congr (State.inputs_post _ w.owner (.touchPress q) (some w.handle))
    unfold State.pressFocus
    split
    · rename_i hasks
      refine htold.moveFocus ?_ hasks.2.2
      rw [(State.post_records _ _ _ _).1]
      exact hw
    · exact htold

theorem State.InputAgrees.contactUp (hs : s.InputAgrees) (q : Pixel) : (s.contactUp q).InputAgrees := by
  unfold State.contactUp
  split
  · exact hs.congr rfl
  · exact State.InputAgrees.routePress (s := { s with sampler := ⟨true, 0, some q, some q⟩ }) (hs.congr rfl) q

theorem State.inputs_contactDown (s : State) (q : Pixel) : (s.contactDown q).inputs = s.inputs := by
  have hmove (u : State) : (u.routeMove q).inputs = u.inputs := by
    unfold State.routeMove
    split
    · exact u.inputs_post _ _ _
    · rfl
  unfold State.contactDown
  split
  · exact hmove _
  · rfl

theorem State.InputAgrees.noContactDown (hs : s.InputAgrees) : s.noContactDown.InputAgrees := by
  have hrelease (u : State) (hu : u.InputAgrees) (q : Pixel) : (u.routeRelease q).InputAgrees := by
    unfold State.routeRelease
    split
    · exact hu.uncaptured.congr (State.inputs_post _ _ _ _)
    · exact hu.uncaptured
  unfold State.noContactDown
  split
  · exact hs.congr rfl
  · split
    · exact hs.uncaptured.congr rfl
    · exact hrelease { s with sampler := .reset } (hs.congr rfl) _

theorem State.InputAgrees.sampleTouch (hs : s.InputAgrees) (reading : TouchReading) : (s.sampleTouch reading).InputAgrees := by
  unfold State.sampleTouch
  split
  · exact hs.contactUp _
  · exact hs.congr (s.inputs_contactDown _)
  · exact hs.congr rfl
  · exact hs.noContactDown

/-! ## Keys -/

theorem State.inputs_setKey (s : State) (k : KeyId) (r : KeyRec) :
    (s.setKey k r).inputs = { s.inputs with key := fun j => if j = k then r else s.key j } := by
  have hkey : (s.setKey k r).key = fun j => if j = k then r else s.key j := by
    funext j
    split
    · rename_i hj
      rw [hj, State.key_setKey_self]
    · exact s.key_setKey_ne r ‹_›
  exact congrArg (fun ks => { s.inputs with key := ks }) hkey

/-- What the scanner and the router hold for a key becomes something that agrees. -/
theorem State.InputAgrees.setKey (hs : s.InputAgrees) {k : KeyId} {r : KeyRec} (hr : r.Agrees fun p => (s.port p).state) :
    (s.setKey k r).InputAgrees := by
  refine .of_inputs ((s.inputAgrees_iff.1 hs).setKeys (ks := fun j => if j = k then r else s.key j) fun j hj => ?_) (s.inputs_setKey k r)
  split
  · exact hr
  · exact hj

theorem State.InputAgrees.key (hs : s.InputAgrees) (k : KeyId) : (s.key k).Agrees fun p => (s.port p).state :=
  (s.inputAgrees_iff.1 hs).key k

theorem State.inputs_postKey (s : State) (c : KeyCapture) (body : EventBody) : (s.postKey c body).inputs = s.inputs :=
  State.inputs_foldl _ _ (fun s p => s.inputs_post p body c.handle) s

theorem State.inputs_postCapture (s : State) (k : KeyId) (body : EventBody) : (s.postCapture k body).inputs = s.inputs := by
  unfold State.postCapture
  split
  · rfl
  · exact s.inputs_postKey _ body

/-- A key report is delivered to LIVE ports alone: those the routing names, or the owner of the key focus window (R149, R153). -/
theorem State.InputAgrees.keyDeliveries_live (hs : s.InputAgrees) (routing : Routing) :
    ∀ p ∈ (s.keyDeliveries routing).ports, (s.port p).state = .live := by
  unfold State.keyDeliveries
  intro p hp
  split at hp
  · split at hp
    · cases hp
    · rename_i w hw
      obtain ⟨x, hx, -, -, hlive⟩ := hs.focus _ (State.focus_of_focusWindow hw)
      have hwindow : s.windowOf w.handle = some w := by
        have hbind : s.focus.bind s.windowOf = some w := hw
        rwa [State.focus_of_focusWindow hw] at hbind
      rw [hwindow] at hx
      cases hx
      rw [List.mem_singleton.1 hp]
      exact hlive
  · split at hp
    · rw [List.mem_singleton.1 hp]
      assumption
    · cases hp
  · simpa using (List.mem_filter.1 hp).2
  · cases hp
  · cases hp

theorem State.setKey_setKey (s : State) (k : KeyId) (q r : KeyRec) : (s.setKey k q).setKey k r = s.setKey k r := by
  simp [State.setKey]

/-- A down report records the key's capture with the accepted state, posts KEY_DOWN to its ports, and makes a SILENCE key's claim (R147
to R149, R163). -/
theorem State.acceptDown_eq (s : State) (k : KeyId) :
    let c := s.keyDeliveries (s.prof.routing.get k)
    let told := (s.setKey k ⟨true, 0, s.repeatTimer k s.prof.repeatDelay, some c⟩).postKey c (.keyDown k)
    s.acceptDown k = if s.prof.routing.get k = .silence then told.silence else told := by
  have hdeliveries (r : KeyRec) (m : Routing) : (s.setKey k r).keyDeliveries m = s.keyDeliveries m := rfl
  have hprof (r : KeyRec) : (s.setKey k r).prof = s.prof := rfl
  unfold State.acceptDown State.routeDown
  simp only [hprof, hdeliveries, State.setKey_setKey, State.key_setKey_self]

theorem State.InputAgrees.acceptDown (hs : s.InputAgrees) (k : KeyId) : (s.acceptDown k).InputAgrees := by
  have hkey (c : KeyCapture) (hc : ∀ p ∈ c.ports, (s.port p).state = .live) (timer : Option Nat) :
      KeyRec.Agrees (fun p => (s.port p).state) ⟨true, 0, timer, some c⟩ := by
    refine ⟨fun c' hc' p hp => ?_, rfl, nofun, Nat.succ_pos _⟩
    cases hc'
    show (s.port p).state.takesRecords = true
    rw [hc p hp]
    rfl
  have htold := (hs.setKey (k := k) (hkey _ (hs.keyDeliveries_live (s.prof.routing.get k)) (s.repeatTimer k s.prof.repeatDelay))).congr
    (State.inputs_postKey _ (s.keyDeliveries (s.prof.routing.get k)) (.keyDown k))
  rw [s.acceptDown_eq]
  split
  · exact htold.congr (State.inputs_silence _)
  · exact htold

theorem State.InputAgrees.acceptUp (hs : s.InputAgrees) (k : KeyId) : (s.acceptUp k).InputAgrees :=
  (hs.congr (s.inputs_postCapture k _)).setKey ⟨nofun, rfl, fun _ => rfl, by decide⟩

theorem State.InputAgrees.repeatKey (hs : s.InputAgrees) {k : KeyId} (h : (s.key k).down = true) : (s.repeatKey k).InputAgrees := by
  have hk := hs.key k
  have hset : (s.setKey k { s.key k with timer := s.repeatTimer k s.prof.repeatInterval }).InputAgrees :=
    hs.setKey ⟨hk.ports, hk.capture, fun hup => absurd (hup.symm.trans h) nofun, hk.count⟩
  exact hset.congr (State.inputs_postCapture _ k _)

theorem State.InputAgrees.readKey (hs : s.InputAgrees) (k : KeyId) (pressed : Bool) : (s.readKey k pressed).InputAgrees := by
  have hk := hs.key k
  unfold State.readKey
  simp only
  split
  · exact hs.setKey ⟨hk.ports, hk.capture, hk.up, Nat.succ_pos _⟩
  · split
    · exact hs.setKey ⟨hk.ports, hk.capture, hk.up, ‹_›⟩
    · split
      · exact hs.acceptDown k
      · exact hs.acceptUp k

/-! ## Time and start-up -/

theorem State.InputAgrees.idle (hs : s.InputAgrees) : s.idle.InputAgrees := by
  have hstate : (fun p => (s.advanceTime.port p).state) = fun p => (s.port p).state :=
    funext fun p => by rw [s.port_advanceTime, PortRec.tick_state]
  have htime : s.advanceTime.inputs = { s.inputs with key := fun k => (s.key k).tick } := by
    have hmk : s.advanceTime.inputs = { s.inputs with state := fun p => (s.advanceTime.port p).state, key := s.advanceTime.key } := rfl
    rw [hmk, hstate, funext s.key_advanceTime]
    rfl
  have hticked : s.advanceTime.InputAgrees := .of_inputs ((s.inputAgrees_iff.1 hs).setKeys (ks := fun k => (s.key k).tick) fun k hk =>
    ⟨hk.ports, hk.capture, fun hup => Option.map_eq_none_iff.2 (hk.up hup), hk.count⟩) htime
  unfold State.idle
  split
  · exact hs
  · split
    · exact hs.congr rfl
    · exact hticked.congr rfl

theorem State.InputAgrees.expireLease (hs : s.InputAgrees) (h : (s.port p).state = .live) : (s.expireLease p).InputAgrees := by
  have hne : (s.port p).state ≠ .detached := by rw [h]; decide
  unfold State.expireLease
  split
  · exact hs.enterClosing hne
  · exact hs.lapse hne

theorem State.InputAgrees.of_reset (d : DeviceState) (is : List Instr) :
    State.InputAgrees { State.reset with device := d, pending := is } := by
  have hkey (k : KeyId) : ({ State.reset with device := d, pending := is } : State).key k = KeyRec.reset := by
    simp [State.key, State.reset, Vector.get_eq_getElem]
  rw [State.inputAgrees_iff]
  refine ⟨fun _ p => congrArg PortRec.state (State.port_reset d is p), nofun, nofun, fun k => ?_⟩
  show KeyRec.Agrees _ (({ State.reset with device := d, pending := is } : State).key k)
  rw [hkey]
  exact ⟨nofun, rfl, fun _ => rfl, Nat.succ_pos _⟩

/-- A profile is put in force while every port is DETACHED, so nothing has focus or a capture (R103). -/
theorem State.InputAgrees.takeProfile (hs : s.InputAgrees) (hd : s.device ≠ .ready) (e : Profile × Bool) :
    (s.takeProfile e).InputAgrees := by
  have hdetached := hs.quietStart hd
  refine .of_inputs ((s.inputAgrees_iff.1 hs).setStates (d := .ready) (st := fun p => ((s.takeProfile e).port p).state)
    (absurd rfl ·) (fun h v _ _ hlive => ?_) (fun h o _ hlive => ?_) fun k c _ p _ htakes => ?_) rfl
  · exact absurd ((hdetached _).symm.trans hlive) nofun
  · exact absurd ((hdetached _).symm.trans hlive) nofun
  · have htakes : (s.port p).state.takesRecords = true := htakes
    rw [hdetached p] at htakes
    cases htakes

theorem State.InputAgrees.becomeReady (hs : s.InputAgrees) (hd : s.device ≠ .ready) (image : Option (List Byte)) (first : TouchReading) :
    (s.becomeReady image first).InputAgrees := by
  have hready := (hs.takeProfile hd (loadedProfile image)).congr (State.inputs_frameStart _)
  unfold State.becomeReady
  simp only
  split
  · exact hready.sampleTouch first
  · exact hready

/-! ## Every step -/

/-- A meaning has a next state in which focus, capture and key captures name what they may. -/
abbrev KeepsInputs (o : Host.Outcome State Fault Refusal) : Prop := ∃ t, o = .next t ∧ t.InputAgrees

theorem State.InputAgrees.ite (hs : s.InputAgrees) (c : Prop) [Decidable c] (h : c → t.InputAgrees) :
    (if c then t else s).InputAgrees := by
  split
  · exact h ‹_›
  · exact hs

/-- A slice row keeps the agreement where its command's work does. -/
theorem KeepsInputs.slice {k : CommandKind} {work : QCmd → State → SliceEnd} (hs : s.InputAgrees)
    (h : ∀ c, (work c s).state.InputAgrees) : KeepsInputs (.next (s.runSlice p k work)) :=
  ⟨_, rfl, hs.runSlice h⟩

/-- Every command and event keeps the agreement. -/
theorem exec_keepsInputs (i : Instr) (s : State) (hs : s.InputAgrees) : KeepsInputs (exec i s) := by
  cases i with
  | deviceReset => exact ⟨_, rfl, .of_reset .held _⟩
  | deviceResetEnd => exact ⟨_, rfl, hs.ite _ fun _ => .of_reset .starting _⟩
  | profileLoadEnd image first => exact ⟨_, rfl, hs.ite _ fun h => hs.becomeReady (by rw [h]; decide) image first⟩
  | nakFraming p bytes => exact ⟨_, rfl, hs.send p bytes⟩
  | fetch p part => exact ⟨_, rfl, hs.congr (s.inputs_fetch p part)⟩
  | attach p tag => exact ⟨_, rfl, hs.answer p tag fun hd => hs.takeAttach hd p tag⟩
  | renew p tag => exact ⟨_, rfl, hs.answer p tag fun hd => hs.takeRenew hd p tag⟩
  | detach p tag => exact ⟨_, rfl, hs.answer p tag fun _ => hs.takeDetach p tag⟩
  | readEvents p tag => exact ⟨_, rfl, hs.answer p tag fun _ => hs.congr (s.inputs_takeReadEvents p tag)⟩
  | status p tag => exact ⟨_, rfl, hs.answer p tag fun _ => hs.congr (s.inputs_ack p tag _)⟩
  | abort p tag => exact ⟨_, rfl, hs.answer p tag fun _ => hs.congr (s.inputs_takeAbort p tag)⟩
  | commandAdmission p kind flags tag payload =>
    refine ⟨_, rfl, ?_⟩
    split
    · exact hs
    · split
      · exact hs.congr (s.inputs_nak p tag _)
      · exact hs.answer p tag fun _ => hs.congr (s.inputs_takeCommand p kind flags tag payload)
  | createWindow p => exact .slice hs fun c => hs.oneSlice fun s' res h => hs.createWindow h
  | destroyWindow p =>
    refine .slice hs fun c => hs.ownWindow fun w hw s' res h => ?_
    cases h
    exact hs.removeWindow w
  | placeWindow p => exact .slice hs fun c => hs.ownWindow fun w hw s' res h => hs.placeWindow h
  | showWindow p =>
    refine .slice hs fun c => hs.ownWindow fun w hw s' res h => ?_
    cases h
    exact (hs.updateWindow hw (fun w => { w with shown := true }) (fun _ => rfl) rfl fun _ hkey => ⟨rfl, hkey⟩).congr
      (State.inputs_recomputeExposure _)
  | hideWindow p =>
    refine .slice hs fun c => hs.ownWindow fun w hw s' res h => ?_
    cases h
    exact (hs.updateWithdraw hw (fun w => { w with shown := false }) (fun _ => rfl) rfl .hidden).congr
      (State.inputs_recomputeExposure _)
  | raiseWindow p =>
    refine .slice hs fun c => hs.ownWindow fun w hw s' res h => ?_
    cases h
    exact hs.congr ((State.inputs_recomputeExposure _).trans (s.inputs_restack hw rfl rfl (insertTop_split _ _)))
  | lowerWindow p =>
    refine .slice hs fun c => hs.ownWindow fun w hw s' res h => ?_
    cases h
    exact hs.congr ((State.inputs_recomputeExposure _).trans (s.inputs_restack hw rfl rfl (insertBottom_split _ _)))
  | setBand p => exact .slice hs fun c => hs.ownWindow fun w hw s' res h => hs.setBand hw h
  | setWindowModes p =>
    refine .slice hs fun c => hs.ownWindow fun w hw s' res h => ?_
    split at h <;> cases h
    exact hs.setModes hw _
  | grantRead p => exact .slice hs fun c => hs.ownWindow fun w hw s' res h => hs.grantRead h
  | revokeRead p =>
    refine .slice hs fun c => hs.ownWindow fun w hw s' res h => ?_
    split at h <;> cases h
    exact hs.congr (s.inputs_updateFields _ _)
  | queryWindow p =>
    refine .slice hs fun c => hs.oneSlice fun s' res h => ?_
    split at h
    · cases h
    · split at h <;> cases h
      exact hs
  | setPen p =>
    refine .slice hs fun c => hs.ownWindow fun w hw s' res h => ?_
    split at h <;> cases h
    exact hs.congr (s.inputs_updateFields _ _)
  | setCursor p =>
    refine .slice hs fun c => hs.ownWindow fun w hw s' res h => ?_
    split at h <;> cases h
    exact hs.congr (s.inputs_updateFields _ _)
  | writeText p =>
    refine .slice hs fun c => hs.ownDrawing fun pr w => ?_
    split
    · rfl
    · exact s.inputs_writeText pr w _
  | putCells p =>
    refine .slice hs fun c => hs.ownDrawing fun pr w => ?_
    split
    · rfl
    · exact s.inputs_rectSlice_ite pr _ _ _ _ _ _
  | fillRect p =>
    refine .slice hs fun c => hs.ownDrawing fun pr w => ?_
    split
    · rfl
    · exact s.inputs_rectSlice_ite pr _ _ _ _ _ _
  | copyRect p => exact KeepsInputs.slice (work := copyWork p) hs fun c => hs.congr (s.inputs_copyWork p c)
  | shiftRect p =>
    refine .slice hs fun c => hs.ownDrawing fun pr w => ?_
    split
    · rfl
    · exact s.inputs_rectSlice_ite pr _ _ _ _ _ _
  | readCells p =>
    refine .slice hs fun c => ?_
    split
    · exact hs
    · split
      · exact hs
      · split <;> exact hs
  | loadGlyphs p =>
    refine .slice hs fun c => hs.oneSlice fun s' res h => ?_
    split at h <;> cases h
    exact hs.congr (s.inputs_setPort_same p _)
  | requestFocus p => exact .slice hs fun c => hs.ownWindow fun w hw s' res h => hs.requestFocus hw h
  | releaseFocus p =>
    refine .slice hs fun c => hs.oneSlice fun s' res h => ?_
    split at h <;> cases h
    exact hs.releaseFocus p
  | toneStart p =>
    refine .slice hs fun c => hs.oneSlice fun s' res h => ?_
    split at h
    · cases h
    · split at h <;> cases h
      exact hs.congr (s.inputs_startTone p _)
  | toneStop p =>
    refine .slice hs fun c => hs.oneSlice fun s' res h => ?_
    split at h <;> cases h
    exact hs.congr (s.inputs_endTone p _)
  | setBrightness p =>
    refine .slice hs fun c => hs.oneSlice fun s' res h => ?_
    split at h <;> cases h
    exact hs.congr (s.inputs_setPort_same p _)
  | frameMark p =>
    refine .slice hs fun c => ?_
    split <;> exact hs
  | frameStart => exact ⟨_, rfl, hs.ite _ fun _ => hs.congr s.inputs_frameStart⟩
  | touchSample reading => exact ⟨_, rfl, hs.ite _ fun _ => hs.sampleTouch reading⟩
  | pressReport x y => exact ⟨_, rfl, hs.ite _ fun _ => hs.contactUp _⟩
  | releaseReport => exact ⟨_, rfl, hs.ite _ fun _ => hs.noContactDown⟩
  | keyReading k pressed => exact ⟨_, rfl, hs.ite _ fun _ => hs.readKey k pressed⟩
  | downReport k => exact ⟨_, rfl, hs.ite _ fun _ => hs.acceptDown k⟩
  | repeatReport k => exact ⟨_, rfl, hs.ite _ fun ⟨_, hdown, _⟩ => hs.repeatKey hdown⟩
  | upReport k => exact ⟨_, rfl, hs.ite _ fun _ => hs.acceptUp k⟩
  | leaseWarning p => exact ⟨_, rfl, hs.ite _ fun _ => hs.congr ((State.inputs_post _ p _ _).trans (s.inputs_setPort_same p _))⟩
  | leaseExpiry p => exact ⟨_, rfl, hs.ite _ fun ⟨hlive, _⟩ => hs.expireLease hlive⟩
  | graceExpiry p => exact ⟨_, rfl, hs.ite _ fun ⟨hlapsed, _⟩ => hs.enterClosing (by rw [hlapsed]; decide)⟩
  | teardownRemoval p =>
    refine ⟨_, rfl, hs.ite _ fun h => ?_⟩
    rcases s.comeRemoval_cases p with ⟨-, hr⟩ | ⟨-, hr⟩ <;> rw [hr]
    · exact hs.congr rfl
    · exact hs.teardownStep h
  | toneExpiry p => exact ⟨_, rfl, hs.ite _ fun _ => hs.congr (s.inputs_endTone p _)⟩
  | tonePhaseChange => exact ⟨_, rfl, hs.congr rfl⟩
  | scanRowFetch =>
    refine ⟨_, rfl, ?_⟩
    split
    · exact hs
    · exact hs.ite _ fun _ => hs.congr rfl
  | ignoredTransaction p bytes => exact ⟨_, rfl, hs.transaction p bytes⟩

end Agreeing

/-- Settles O57: the command at the front of the queue, or the passing of time on an empty one, keeps the agreement. -/
theorem stepKeepsTheInputsAgreeing : Obligations.StepKeepsTheInputsAgreeing := by
  intro s t hs h
  unfold step at h
  split at h
  · cases h
    exact hs.idle
  · rename_i i rest _
    obtain ⟨u, hu, hagrees⟩ := exec_keepsInputs i { s with pending := rest } (hs.congr rfl)
    rw [hu] at h
    cases h
    exact hagrees

end Sys2Proof.Machine
end

section
namespace Sys2Proof.Machine

-- One theorem is checked at a time, for the memory limit.
set_option Elab.async false

/-! Touch: the mapping of a sample, what the sampler makes of it by its contact state, and the routing of a press and a release. -/

/-! ## The mapping (R135) -/

/-- An axis of the mapping: the calibrated position, clamped to the screen. -/
theorem mapAxis_clamps (raw : Nat) (offset : Int) (gain : Nat) {size : Nat} (hsize : 1 ≤ size) :
    let v := ((raw : Int) - offset) * gain * size / 4194304
    let n := mapAxis raw offset gain size
    n < size ∧ (v < 0 → n = 0) ∧ (0 ≤ v → v < size → (n : Int) = v) ∧ ((size : Int) ≤ v → n + 1 = size) := by
  intro v n
  have hn : n = min v.toNat (size - 1) := rfl
  clear_value v
  omega

/-! ## The sampler (R134, R136 to R138) -/

section Sampling

variable {s : State} {q r : Pixel}

theorem State.sampling_iff (s : State) : s.sampling = true ↔ s.device = .ready ∧ s.prof.touchEnabled = true := by
  simp [State.sampling]

/-- Without touch, or before READY, no sample is taken. -/
theorem exec_touchSample_off (h : s.device ≠ .ready ∨ s.prof.touchEnabled = false) (reading : TouchReading) :
    exec (.touchSample reading) s = .next s := by
  refine congrArg Host.Outcome.next (if_neg fun hs => ?_)
  obtain ⟨hready, htouch⟩ := s.sampling_iff.1 hs
  rcases h with h | h
  · exact h hready
  · rw [htouch] at h
    cases h

/-- A sample that is taken is mapped, and judged by the contact state. -/
theorem exec_touchSample (hs : s.sampling = true) (reading : TouchReading) :
    exec (.touchSample reading) s = .next (s.sampleTouch reading) :=
  congrArg Host.Outcome.next (if_pos hs)

theorem State.sampleTouch_contactUp (hup : s.sampler.down = false) (x y : BitVec 12) :
    s.sampleTouch (some (x, y)) = s.contactUp (mapTouch s.prof x y) := by
  simp only [State.sampleTouch, hup]

theorem State.sampleTouch_contactDown (hdown : s.sampler.down = true) (x y : BitVec 12) :
    s.sampleTouch (some (x, y)) = s.contactDown (mapTouch s.prof x y) := by
  simp only [State.sampleTouch, hdown]

theorem State.sampleTouch_noContactUp (hup : s.sampler.down = false) :
    s.sampleTouch none = { s with sampler := { s.sampler with run := 0 } } := by
  simp only [State.sampleTouch, hup]

theorem State.sampleTouch_noContactDown (hdown : s.sampler.down = true) : s.sampleTouch none = s.noContactDown := by
  simp only [State.sampleTouch, hdown]

/-- The first contact in a row is counted (R136). -/
theorem State.contactUp_first (hrun : s.sampler.run = 0) (q : Pixel) :
    s.contactUp q = { s with sampler := { s.sampler with run := 1, lastContact := some q } } := by
  simp [State.contactUp, hrun]

/-- The state of the sampler after a press or a move at a pixel. -/
def State.reportedAt (s : State) (q : Pixel) : State := { s with sampler := ⟨true, 0, some q, some q⟩ }

/-- The second contact in a row is a press (R136). -/
theorem State.contactUp_second (hrun : s.sampler.run = 1) (q : Pixel) : s.contactUp q = (s.reportedAt q).routePress q := by
  simp [State.contactUp, hrun, State.reportedAt]

/-- A contact has travelled when it is the move threshold away in x or in y (R137). -/
theorem travelled_iff (d : Nat) (r q : Pixel) : travelled d (some r) q = true ↔
    (d : Int) ≤ (q.x : Int) - r.x ∨ (d : Int) ≤ (r.x : Int) - q.x ∨ (d : Int) ≤ (q.y : Int) - r.y ∨ (d : Int) ≤ (r.y : Int) - q.y := by
  unfold travelled
  rw [Bool.or_eq_true, decide_eq_true_eq, decide_eq_true_eq]
  unfold distance
  omega

/-- A contact that has not travelled is noted (R137). -/
theorem State.contactDown_still (hdown : s.sampler.down = true) (hr : s.sampler.lastReported = some r)
    (h : travelled s.prof.moveThreshold (some r) q = false) :
    s.contactDown q = { s with sampler := ⟨true, 0, some q, some r⟩ } := by
  simp only [State.contactDown, hr, h, hdown, Bool.false_eq_true, if_false]

/-- A contact that has travelled is a move (R137). -/
theorem State.contactDown_moved (hdown : s.sampler.down = true) (hr : s.sampler.lastReported = some r)
    (h : travelled s.prof.moveThreshold (some r) q = true) : s.contactDown q = (s.reportedAt q).routeMove q := by
  simp only [State.contactDown, hr, h, hdown, if_true, State.reportedAt]

/-- A move is told to the owner of the window with the capture (R143). -/
theorem State.routeMove_captured {h : Handle} {o : Port} (hc : s.capture = .captured h o) (q : Pixel) :
    s.routeMove q = s.post o (.touchMove q) (some h) := by
  simp only [State.routeMove, hc]

theorem State.routeMove_uncaptured (hc : ∀ h o, s.capture ≠ .captured h o) (q : Pixel) : s.routeMove q = s := by
  unfold State.routeMove
  split
  · exact absurd ‹_› (hc _ _)
  · rfl

/-- The first two samples without contact in a row are counted (R138). -/
theorem State.noContactDown_early (hrun : s.sampler.run < 2) :
    s.noContactDown = { s with sampler := { s.sampler with run := s.sampler.run + 1 } } :=
  if_pos (by omega)

/-- The third sample without contact in a row is a release (R138). -/
theorem State.noContactDown_third (hrun : s.sampler.run = 2) (hr : s.sampler.lastContact = some r) :
    s.noContactDown = State.routeRelease { s with sampler := .reset } r := by
  simp [State.noContactDown, hrun, hr]

theorem exec_releaseReport (hs : s.sampling = true) (hdown : s.sampler.down = true) (hrun : s.sampler.run = 2) :
    exec .releaseReport s = .next s.noContactDown :=
  congrArg Host.Outcome.next (if_pos ⟨hs, hdown, hrun⟩)

/-- A release is told to the owner of the window with the capture, and the capture is IDLE (R143). -/
theorem State.routeRelease_captured {h : Handle} {o : Port} (hc : s.capture = .captured h o) (q : Pixel) :
    s.routeRelease q = State.post { s with capture := .idle } o (.touchRelease q) (some h) := by
  simp only [State.routeRelease, hc]

theorem State.routeRelease_uncaptured (hc : ∀ h o, s.capture ≠ .captured h o) (q : Pixel) :
    s.routeRelease q = { s with capture := .idle } := by
  unfold State.routeRelease
  split
  · exact absurd ‹_› (hc _ _)
  · rfl

end Sampling

/-- Settles O47: the mapping axis by axis, and each sample by the contact state and the run before it. -/
theorem touchSamplesMakeTheirReports : Obligations.TouchSamplesMakeTheirReports := by
  refine ⟨fun prof x y hcols hrows => ?_, fun s x y => ⟨fun reading hoff => exec_touchSample_off hoff reading, fun hready htouch => ?_⟩⟩
  · exact ⟨mapAxis_clamps _ _ _ (by omega), mapAxis_clamps _ _ _ (by omega)⟩
  · have hs := s.sampling_iff.2 ⟨hready, htouch⟩
    simp only [exec_touchSample hs]
    refine ⟨fun hup => ?_, fun hup hrun => ?_, fun hup hrun => ?_, fun r hdown hr hnear => ?_, fun r hdown hr hfar => ⟨fun h o hc => ?_,
      fun hc => ?_⟩, fun hdown hrun => ?_, fun hdown hrun => ?_⟩
    · rw [State.sampleTouch_noContactUp hup]
    · rw [State.sampleTouch_contactUp hup, State.contactUp_first hrun]
    · rw [State.sampleTouch_contactUp hup, State.contactUp_second hrun]
      rfl
    · rw [State.sampleTouch_contactDown hdown,
        State.contactDown_still hdown hr (Bool.eq_false_iff.2 fun h => hnear ((travelled_iff _ _ _).1 h))]
    · rw [State.sampleTouch_contactDown hdown, State.contactDown_moved hdown hr ((travelled_iff _ _ _).2 hfar),
        State.routeMove_captured (s := s.reportedAt _) hc]
      rfl
    · rw [State.sampleTouch_contactDown hdown, State.contactDown_moved hdown hr ((travelled_iff _ _ _).2 hfar),
        State.routeMove_uncaptured (s := s.reportedAt _) hc]
      rfl
    · rw [State.sampleTouch_noContactDown hdown, State.noContactDown_early hrun]
    · rw [State.sampleTouch_noContactDown hdown, exec_releaseReport hs hdown hrun]

/-! ## Presses and releases (R140 to R143) -/

section Routing

variable {s : State} {w : Window}

theorem exec_pressReport (hs : s.sampling = true) (hup : s.sampler.down = false) (hrun : s.sampler.run = 1) (x y : BitVec 12) :
    exec (.pressReport x y) s = .next ((s.reportedAt (mapTouch s.prof x y)).routePress (mapTouch s.prof x y)) := by
  rw [← State.contactUp_second hrun]
  exact congrArg Host.Outcome.next (if_pos ⟨hs, hup, hrun⟩)

/-- A press that no window takes is an orphan (R141). -/
theorem State.routePress_unclaimed {q : Pixel} (h : s.hitTest q = none) : s.routePress q = { s with capture := .orphan } := by
  simp only [State.routePress, h]

/-- A press that a window takes gives it the capture, is told to its owner, and asks for key focus (R141, R142). -/
theorem State.routePress_claimed {q : Pixel} (h : s.hitTest q = some w) : s.routePress q
    = (State.post { s with capture := .captured w.handle w.owner } w.owner (.touchPress q) (some w.handle)).pressFocus w := by
  simp only [State.routePress, h]

theorem State.focusWindow_post (s : State) (p : Port) (body : EventBody) (h : Option Handle) :
    (s.post p body h).focusWindow = s.focusWindow := by
  rw [(s.post_records p body h).1]
  rfl

/-- The window that takes a press asks for key focus when it is key-eligible and shown, does not have focus, and the focus rule
permits it (R142, R154). -/
abbrev State.AsksFocus (s : State) (w : Window) : Prop := w.keyEligible = true ∧ w.shown = true ∧ s.focus ≠ some w.handle
  ∧ ∀ f, s.focusWindow = some f → f.band.rank ≤ w.band.rank ∨ f.owner = w.owner

theorem State.pressFocus_eq (hlive : (s.port w.owner).state = .live) :
    s.pressFocus w = if s.AsksFocus w then s.moveFocus w else s := by
  unfold State.pressFocus
  refine if_congr ?_ rfl rfl
  rw [s.permitsFocus_iff]
  exact ⟨fun ⟨hkey, hne, hshown, _, _, hrule⟩ => ⟨hkey, hshown, hne, hrule⟩,
    fun ⟨hkey, hshown, hne, hrule⟩ => ⟨hkey, hne, hshown, hkey, hlive, hrule⟩⟩

/-- A record posted to a port leaves it to the focus rule whether a window may ask for key focus. -/
theorem State.asksFocus_post (s : State) (w : Window) (p : Port) (body : EventBody) (h : Option Handle) :
    (s.post p body h).AsksFocus w ↔ s.AsksFocus w := by
  have hfocus : (s.post p body h).focus = s.focus := by rw [(s.post_records p body h).1]
  unfold State.AsksFocus
  rw [hfocus, s.focusWindow_post]

end Routing

/-- Settles O48: the hit test finds the window that the claim describes, and the focus rule is applied once the press has been
told. -/
theorem pressesAndReleasesAreRouted : Obligations.PressesAndReleasesAreRouted := by
  intro s x y hready htouch q hits claims pressed
  have hs := s.sampling_iff.2 ⟨hready, htouch⟩
  have hsearch : pressed.hitTest q = pressed.hitSearch hits := by
    have hlatched : pressed.latched = s.latched := rfl
    unfold State.hitTest
    rw [hlatched]
    dsimp only [hits]
    cases s.latched <;> rfl
  have hclaims (w : Window) : claims w ↔ pressed.hitTest q = some w := by
    rw [hsearch]
    exact (pressed.hitSearch_eq_some_iff hits w).symm
  have hexec (hup : s.sampler.down = false) (hrun : s.sampler.run = 1) : exec (.pressReport x y) s = .next (pressed.routePress q) :=
    exec_pressReport hs hup hrun x y
  refine ⟨fun hup hrun => ⟨fun w hw => ?_, fun hnone => ?_⟩, fun r hdown hrun hr => ⟨fun h o hc => ?_, fun hc => ?_⟩⟩
  · have hhit := (hclaims w).1 hw
    intro told eased asks
    have hlive : (told.port w.owner).state = .live := by
      rw [((State.post_records _ _ _ _).keeps _).1]
      exact (State.hitTest_some hhit).2
    have hpress : exec (.pressReport x y) s = .next (if told.AsksFocus w then told.moveFocus w else told) := by
      rw [hexec hup hrun, State.routePress_claimed hhit, ← State.pressFocus_eq hlive]
    have hasks : told.AsksFocus w ↔ asks := State.asksFocus_post _ w _ _ _
    have hmove : told.moveFocus w = State.post { eased with focus := some w.handle } w.owner .focusGained (some w.handle) := by
      have hwindow : told.focusWindow = s.focusWindow := State.focusWindow_post _ _ _ _
      unfold State.moveFocus
      rw [hwindow]
      dsimp only [eased]
      cases s.focusWindow <;> rfl
    rw [hpress, ← hmove]
    exact ⟨fun hno => congrArg _ (if_neg (mt hasks.1 hno)), fun hyes => congrArg _ (if_pos (hasks.2 hyes))⟩
  · rw [hexec hup hrun, State.routePress_unclaimed]
    exact Option.eq_none_iff_forall_ne_some.2 fun w hw => hnone w ((hclaims w).2 hw)
  · rw [exec_releaseReport hs hdown hrun, State.noContactDown_third hrun hr,
      State.routeRelease_captured (s := { s with sampler := .reset }) hc]
  · rw [exec_releaseReport hs hdown hrun, State.noContactDown_third hrun hr,
      State.routeRelease_uncaptured (s := { s with sampler := .reset }) hc]

end Sys2Proof.Machine
end

section
namespace Sys2Proof.Machine

-- One theorem is checked at a time, for the memory limit.
set_option Elab.async false

/-! Keys and key focus: the slices that ask for focus and give it up, the readings of a key, and where its reports go. -/

/-! ## Key focus (R154 to R156) -/

section Focus

variable {s : State} {w : Window}

theorem State.requestFocus_held (h : s.focus = some w.handle) : s.requestFocus w = .ok (s, .none) :=
  if_pos h

theorem State.requestFocus_denied (h : s.focus ≠ some w.handle) (hp : ¬ s.permitsFocus w = true) :
    s.requestFocus w = .error .denied :=
  (if_neg h).trans (if_neg hp)

theorem State.requestFocus_permitted (h : s.focus ≠ some w.handle) (hp : s.permitsFocus w = true) :
    s.requestFocus w = .ok (s.moveFocus w, .none) :=
  (if_neg h).trans (if_pos hp)

theorem State.releaseFocus_held (h : s.focusWindow = some w) : s.releaseFocus w.owner
    = State.post { s with focus := none } w.owner (.focusLost .released) (some w.handle) := by
  rw [State.releaseFocus, h]
  exact (if_pos rfl).trans (if_pos (State.focus_of_focusWindow h))

theorem State.releaseFocus_unheld {p : Port} (h : ∀ w, s.focusWindow = some w → w.owner ≠ p) : s.releaseFocus p = s := by
  rw [State.releaseFocus]
  cases hw : s.focusWindow with
  | none => rfl
  | some w => exact if_neg (h w hw)

end Focus

/-- Settles O39: each effect by the branch its condition selects; the records it posts leave the end of the slice as it is. -/
theorem focusMovesUnderTheFocusRule : Obligations.FocusMovesUnderTheFocusRule := by
  refine fun s p c => ⟨fun w hserves hnames => ?_, fun hserves => ⟨fun hl => ?_, fun w hl hw ho => ?_, fun hl hnone => ?_⟩⟩
  · intro permitted told
    obtain ⟨hw, rfl⟩ := hnames
    have heffect (hl : c.payload.length = 2) : ownWindow s w.owner c 2 s.requestFocus = s.requestFocus w :=
      ownWindow_effect ⟨hw, rfl⟩ hl
    have hpermitted : s.permitsFocus w = true ↔ permitted := s.permitsFocus_iff w
    refine ⟨fun hl => ?_, fun hl hheld => ?_, fun hl hother hno => ?_, fun hl hother hyes => ?_⟩
    · exact exec_refused rfl hserves (ownWindow_badLength ⟨hw, rfl⟩ hl)
    · exact exec_takes rfl hserves ((heffect hl).trans (State.requestFocus_held hheld))
    · exact exec_refused rfl hserves ((heffect hl).trans (State.requestFocus_denied hother (mt hpermitted.1 hno)))
    · have hmove : s.moveFocus w = State.post { told with focus := some w.handle } w.owner .focusGained (some w.handle) := by
        unfold State.moveFocus
        dsimp only [told]
        cases s.focusWindow <;> rfl
      rw [← hmove]
      exact exec_takes rfl hserves ((heffect hl).trans (State.requestFocus_permitted hother (hpermitted.2 hyes)))
        ((s.moveFocus_records w).keeps _)
  · exact exec_refused rfl hserves (if_neg hl)
  · subst ho
    rw [← State.releaseFocus_held hw]
    refine exec_takes rfl hserves (if_pos hl) ?_
    rw [State.releaseFocus_held hw]
    exact (State.post_records _ _ _ _).keeps _
  · exact exec_takes rfl hserves ((if_pos hl).trans (by rw [State.releaseFocus_unheld hnone]))

/-! ## The scanner (R147) -/

theorem KeyRec.ripe_iff (q : KeyRec) : q.ripe = true ↔ q.agree = 19 := by
  simp [KeyRec.ripe, Config.keyAgreement]

section Scanner

variable {s : State} {k : KeyId}

theorem exec_keyReading (hs : s.device = .ready) (pressed : Bool) : exec (.keyReading k pressed) s = .next (s.readKey k pressed) :=
  congrArg Host.Outcome.next (if_pos hs)

theorem exec_downReport (hs : s.device = .ready) (hup : (s.key k).down = false) (hripe : (s.key k).agree = 19) :
    exec (.downReport k) s = .next (s.acceptDown k) :=
  congrArg Host.Outcome.next (if_pos ⟨hs, hup, (KeyRec.ripe_iff _).2 hripe⟩)

theorem exec_upReport (hs : s.device = .ready) (hdown : (s.key k).down = true) (hripe : (s.key k).agree = 19) :
    exec (.upReport k) s = .next (s.acceptUp k) :=
  congrArg Host.Outcome.next (if_pos ⟨hs, hdown, (KeyRec.ripe_iff _).2 hripe⟩)

theorem exec_repeatReport (hs : s.device = .ready) (hdown : (s.key k).down = true) (hzero : (s.key k).timer = some 0) :
    exec (.repeatReport k) s = .next (s.repeatKey k) :=
  congrArg Host.Outcome.next (if_pos ⟨hs, hdown, hzero⟩)

/-- A reading that differs from the accepted state, before the twentieth in a row, counts. -/
theorem State.readKey_counts {pressed : Bool} (hne : pressed ≠ (s.key k).down) (h : (s.key k).agree < 19) :
    s.readKey k pressed = s.setKey k { s.key k with agree := (s.key k).agree + 1 } :=
  (if_neg hne).trans (if_pos (Nat.succ_lt_succ h))

/-- The twentieth reading in a row that differs from the accepted state is accepted. -/
theorem State.readKey_accepts {pressed : Bool} (hne : pressed ≠ (s.key k).down) (h : (s.key k).agree = 19) :
    s.readKey k pressed = if pressed then s.acceptDown k else s.acceptUp k :=
  (if_neg hne).trans (if_neg (by rw [h]; decide))

end Scanner

/-- Settles O49: a reading by the count it finds; a report row whose condition fails leaves the state as it is. -/
theorem keyReadingsAgreeTwentyTimes : Obligations.KeyReadingsAgreeTwentyTimes := by
  refine fun s k pressed => ⟨fun hs => ?_, fun hs heq => ?_, fun hs hne hcount => ?_, fun hs hpressed hup hripe => ?_,
    fun hs hpressed hdown hripe => ?_, fun hnot => ?_, fun hnot => ?_, fun hnot => ?_⟩
  · exact congrArg Host.Outcome.next (if_neg hs)
  · exact (exec_keyReading hs pressed).trans (congrArg Host.Outcome.next (if_pos heq))
  · rw [exec_keyReading hs, State.readKey_counts hne hcount]
  · subst hpressed
    rw [exec_keyReading hs, exec_downReport hs hup hripe, State.readKey_accepts (by rw [hup]; decide) hripe]
    rfl
  · subst hpressed
    rw [exec_keyReading hs, exec_upReport hs hdown hripe, State.readKey_accepts (by rw [hdown]; decide) hripe]
    rfl
  · refine congrArg Host.Outcome.next (if_neg fun ⟨hs, hup, hripe⟩ => ?_)
    simp [hs, hup, (KeyRec.ripe_iff _).1 hripe] at hnot
  · refine congrArg Host.Outcome.next (if_neg fun ⟨hs, hdown, hripe⟩ => ?_)
    simp [hs, hdown, (KeyRec.ripe_iff _).1 hripe] at hnot
  · refine congrArg Host.Outcome.next (if_neg fun ⟨hs, hdown, hzero⟩ => ?_)
    simp [hs, hdown, hzero] at hnot

/-! ## Changes made port by port -/

/-- What a port holds after a record has been posted to it at a time (R124, R125). -/
def PortRec.post (q : PortRec) (time : BitVec 16) (body : EventBody) (h : Option Handle) : PortRec :=
  if q.state.takesRecords then q.join ⟨body, time, h, false⟩ else q

theorem State.post_eq_setPort (s : State) (p : Port) (body : EventBody) (h : Option Handle) :
    s.post p body h = s.setPort p ((s.port p).post s.timeBase body h) :=
  s.post_eq p body h

theorem State.port_post_self (s : State) (p : Port) (body : EventBody) (h : Option Handle) :
    (s.post p body h).port p = (s.port p).post s.timeBase body h := by
  rw [State.post_eq_setPort, State.port_setPort_self]

/-- A record joins, coalesces or is lost whatever tone request its port has. -/
theorem PortRec.join_tone (q : PortRec) (t : Option Tone) (r : Record) :
    PortRec.join { q with tone := t } r = { q.join r with tone := t } := by
  unfold PortRec.join
  dsimp only
  cases hasPlace q.events r.body.isFailed with
  | true => rfl
  | false => cases coalesce q.events r <;> rfl

theorem PortRec.post_tone (q : PortRec) (t : Option Tone) (time : BitVec 16) (body : EventBody) (h : Option Handle) :
    PortRec.post { q with tone := t } time body h = { q.post time body h with tone := t } := by
  cases htakes : q.state.takesRecords with
  | true => simp only [PortRec.post, htakes, if_true, PortRec.join_tone]
  | false => simp only [PortRec.post, htakes, Bool.false_eq_true, if_false]

/-- An operation on one port: it gives the port what `g` makes of the time base and of what the part held for the port, and leaves
the other ports and the time base as they are. -/
structure PortLocal (f : State → Port → State) (g : BitVec 16 → PortRec → PortRec) : Prop where
  port : ∀ s p q, (f s p).port q = if q = p then g s.timeBase (s.port q) else s.port q
  time : ∀ s p, (f s p).timeBase = s.timeBase

/-- An operation taken for each port of a list without repetition changes each of them once. -/
theorem PortLocal.port_foldl {f : State → Port → State} {g : BitVec 16 → PortRec → PortRec} (hf : PortLocal f g) {l : List Port}
    (hl : l.Nodup) (s : State) (q : Port) : (l.foldl f s).port q = if q ∈ l then g s.timeBase (s.port q) else s.port q := by
  induction l generalizing s with
  | nil => rfl
  | cons p l ih =>
    obtain ⟨hp, hl⟩ := List.nodup_cons.1 hl
    rw [List.foldl_cons, ih hl, hf.time, hf.port]
    by_cases hq : q = p
    · subst hq
      simp [hp]
    · simp [hq]

theorem State.port_setPort_update (s : State) (p q : Port) (g : PortRec → PortRec) :
    (s.setPort p (g (s.port p))).port q = if q = p then g (s.port q) else s.port q := by
  rw [State.port_setPort]
  split
  · rename_i hq
    rw [hq]
  · rfl

theorem PortLocal.post (body : EventBody) (h : Option Handle) :
    PortLocal (fun s p => s.post p body h) (fun time q => q.post time body h) where
  port s p q := by
    rw [State.post_eq_setPort]
    exact s.port_setPort_update p q fun r => r.post s.timeBase body h
  time s p := s.post_timeBase p body h

/-! ## Key records (R149, R150) -/

theorem State.postKey_frame (s : State) (c : KeyCapture) (body : EventBody) :
    s.postKey c body = { s with ports := (s.postKey c body).ports } :=
  (State.foldl_records c.ports _ (fun s p => s.post_records p body c.handle) s).1

/-- A key record reaches each port of the capture once, and no other. -/
theorem State.port_postKey (s : State) {c : KeyCapture} (hc : c.ports.Nodup) (body : EventBody) (p : Port) :
    (s.postKey c body).port p = if p ∈ c.ports then (s.post p body c.handle).port p else s.port p := by
  rw [State.port_post_self]
  exact (PortLocal.post body c.handle).port_foldl hc s p

theorem State.postKey_nil (s : State) {c : KeyCapture} (h : c.ports = []) (body : EventBody) : s.postKey c body = s := by
  rw [State.postKey, h]
  rfl

theorem State.key_setKey (s : State) (k j : KeyId) (r : KeyRec) : (s.setKey k r).key j = if j = k then r else s.key j :=
  congrFun (congrArg Inputs.key (s.inputs_setKey k r)) j

theorem State.key_congr {s t : State} (h : t.keys = s.keys) (k : KeyId) : t.key k = s.key k :=
  congrArg (fun ks : Vector KeyRec 8 => ks.get k) h

theorem State.keyDeliveries_focus (s : State) :
    s.keyDeliveries .focus = ⟨s.focusOwner.toList, s.focusWindow.map (·.handle)⟩ := by
  rw [State.keyDeliveries, State.focusOwner_eq]
  cases s.focusWindow <;> rfl

theorem State.mem_keyDeliveries_port (s : State) (n p : Port) :
    p ∈ (s.keyDeliveries (.port n)).ports ↔ p = n ∧ (s.port n).state = .live := by
  rw [State.keyDeliveries]
  split <;> simp [*]

theorem State.keyDeliveries_port_handle (s : State) (n : Port) : (s.keyDeliveries (.port n)).handle = none := by
  rw [State.keyDeliveries]
  split <;> rfl

theorem State.mem_keyDeliveries_all (s : State) (p : Port) : p ∈ (s.keyDeliveries .all).ports ↔ (s.port p).state = .live := by
  have hall : ∀ p : Port, p ∈ allPorts := by decide
  simp [State.keyDeliveries, hall]

/-- No port is named twice by a routing. -/
theorem State.nodup_keyDeliveries (s : State) (m : Routing) : (s.keyDeliveries m).ports.Nodup := by
  cases m with
  | focus =>
    rw [State.keyDeliveries_focus]
    cases s.focusOwner with
    | none => exact List.nodup_nil
    | some p => exact List.nodup_singleton p
  | port n =>
    rw [State.keyDeliveries]
    split
    · exact List.nodup_singleton _
    · exact List.nodup_nil
  | all => exact List.Nodup.filter _ (by decide)
  | silence => exact List.nodup_nil
  | none => exact List.nodup_nil

/-! ## The silence claim (R163) -/

/-- A port has a request that a silence claim ends: one of the BASE or the ALERT band. -/
def PortRec.silenceable (q : PortRec) : Bool := q.tone.any (fun u => u.band != .critical)

/-- What a silence claim at a time leaves a port. -/
def PortRec.silenced (time : BitVec 16) (q : PortRec) : PortRec :=
  match q.tone with
  | none => q
  | some u =>
    if u.band = .critical then q
    else { (if u.endReport = true then q.post time (.toneEnded u.tag .silenced) none else q) with tone := none }

theorem PortRec.silenceable_some {q : PortRec} {u : Tone} (h : q.tone = some u) : q.silenceable = true ↔ u.band ≠ .critical := by
  simp [PortRec.silenceable, h]

theorem PortRec.not_silenceable_iff {q : PortRec} : ¬ q.silenceable = true ↔ ∀ u, q.tone = some u → u.band = .critical := by
  cases hu : q.tone <;> simp [PortRec.silenceable, hu]

theorem PortRec.silenced_of_not_silenceable {q : PortRec} (h : ¬ q.silenceable = true) (time : BitVec 16) : q.silenced time = q := by
  unfold PortRec.silenced
  split
  · rfl
  · rename_i u hu
    exact if_pos (PortRec.not_silenceable_iff.1 h u hu)

theorem PortRec.silenced_some {q : PortRec} {u : Tone} (h : q.tone = some u) (hb : u.band ≠ .critical) (time : BitVec 16) :
    q.silenced time
      = { (if u.endReport = true then q.post time (.toneEnded u.tag .silenced) none else q) with tone := none } := by
  rw [PortRec.silenced, h]
  exact if_neg hb

/-- The end of a port's request: its record joins what the part holds for the port, and the sounding choice is made again (R159,
R165). -/
theorem State.endTone_some {s : State} {p : Port} {u : Tone} (hu : (s.port p).tone = some u) (reason : ToneReason) :
    s.endTone p reason = (s.setPort p
      { (if u.endReport = true then (s.port p).post s.timeBase (.toneEnded u.tag reason) none else s.port p) with
        tone := none }).chooseTone := by
  rw [State.endTone, hu]
  refine congrArg State.chooseTone ?_
  split
  · rw [State.post_eq_setPort, State.port_setPort_self, State.setPort_setPort, PortRec.post_tone]
    rfl
  · rfl

/-- One port's part in a silence claim. -/
abbrev State.silencePort (s : State) (p : Port) : State := s.endToneIf p (fun b => b != .critical) .silenced

theorem State.silencePort_eq (s : State) (p : Port) : s.silencePort p
    = if (s.port p).silenceable then (s.setPort p ((s.port p).silenced s.timeBase)).chooseTone else s := by
  unfold State.silencePort State.endToneIf
  cases hu : (s.port p).tone with
  | none => simp [PortRec.silenceable, hu]
  | some u =>
    refine if_ctx_congr ?_ (fun hb => ?_) fun _ => rfl
    · rw [PortRec.silenceable_some hu, bne_iff_ne]
    · rw [PortRec.silenced_some hu ((PortRec.silenceable_some hu).1 hb), State.endTone_some hu]

theorem PortLocal.silencePort : PortLocal State.silencePort PortRec.silenced where
  port s p q := by
    have hport : (s.silencePort p).port q = (s.setPort p ((s.port p).silenced s.timeBase)).port q := by
      rw [State.silencePort_eq]
      split
      · rfl
      · rw [PortRec.silenced_of_not_silenceable ‹_›, State.setPort_port]
    rw [hport]
    exact s.port_setPort_update p q (PortRec.silenced s.timeBase)
  time s p := by
    rw [State.silencePort_eq]
    split <;> rfl

/-- A silence claim ends the BASE or ALERT request of each port. -/
theorem State.port_silence (s : State) (p : Port) : s.silence.port p = (s.port p).silenced s.timeBase :=
  have hall : ∀ p : Port, p ∈ allPorts := by decide
  (PortLocal.silencePort.port_foldl (l := allPorts) (by decide) s p).trans (if_pos (hall p))

/-- A silence claim with no request to end changes nothing. -/
theorem State.silence_unclaimed {s : State} (h : ∀ p, ¬ (s.port p).silenceable = true) : s.silence = s :=
  List.foldl_fixed' (fun p => (s.silencePort_eq p).trans (if_neg (h p))) allPorts

/-- A silence claim changes nothing, or its last effect is to make the sounding choice again (R159). -/
theorem State.silence_chooses (s : State) : s.silence = s ∨ ∃ u : State, s.silence = u.chooseTone := by
  have hport (u : State) (p : Port) : u.silencePort p = u ∨ ∃ v : State, u.silencePort p = v.chooseTone := by
    rw [State.silencePort_eq]
    split
    · exact .inr ⟨_, rfl⟩
    · exact .inl rfl
  unfold State.silence
  induction allPorts generalizing s with
  | nil => exact .inl rfl
  | cons p l ih =>
    rw [List.foldl_cons]
    rcases ih (s.silencePort p) with hl | hl
    · rw [hl]
      exact hport s p
    · exact .inr hl

/-- A silence claim that ends a request leaves the sounding choice made for the requests that go on. -/
theorem State.silence_chosen {s : State} {p : Port} {u : Tone} (hu : (s.port p).tone = some u) (hb : u.band ≠ .critical) :
    s.silence.sounding = s.silence.soundingChoice ∧ s.silence.sounder = s.silence.drivenPitch s.silence.soundingChoice := by
  have hended : (s.silence.port p).tone = none := by rw [State.port_silence, PortRec.silenced_some hu hb]
  rcases s.silence_chooses with h | ⟨v, h⟩
  · rw [h, hu] at hended
    cases hended
  · rw [h]
    exact ⟨rfl, rfl⟩

/-- `t` is `s` but for what the part holds for the ports and for the sounding choice. -/
def State.PortsAndSoundOnly (s t : State) : Prop :=
  t = { s with ports := t.ports, sounding := t.sounding, sounder := t.sounder }

theorem State.PortsAndSoundOnly.trans {s t u : State} (h : s.PortsAndSoundOnly t) (h' : t.PortsAndSoundOnly u) :
    s.PortsAndSoundOnly u := by
  unfold State.PortsAndSoundOnly at *
  rw [h', h]

/-- A silence claim changes the ports and the sounding choice only. -/
theorem State.silence_frame (s : State) : s.PortsAndSoundOnly s.silence := by
  have hport (u : State) (p : Port) : u.PortsAndSoundOnly (u.silencePort p) := by
    rw [State.silencePort_eq]
    split <;> rfl
  unfold State.silence
  induction allPorts generalizing s with
  | nil => rfl
  | cons p l ih => exact (hport s p).trans (ih _)

/-! ## Key reports (R147 to R150) -/

section Reports

variable {s : State} {k : KeyId}

/-- The key of an accepted down report: DOWN, its repeat timer started, its capture the ports that the routing names (R147 to
R150). -/
def State.downKey (s : State) (k : KeyId) : KeyRec :=
  ⟨true, 0, s.repeatTimer k s.prof.repeatDelay, some (s.keyDeliveries (s.prof.routing.get k))⟩

theorem State.acceptDown_told (h : s.prof.routing.get k ≠ .silence) :
    s.acceptDown k = (s.setKey k (s.downKey k)).postKey (s.keyDeliveries (s.prof.routing.get k)) (.keyDown k) :=
  (s.acceptDown_eq k).trans (if_neg h)

theorem State.acceptDown_silence (h : s.prof.routing.get k = .silence) : s.acceptDown k = (s.setKey k (s.downKey k)).silence := by
  have hnone : (s.keyDeliveries (s.prof.routing.get k)).ports = [] := by rw [h]; rfl
  refine (s.acceptDown_eq k).trans ((if_pos h).trans (congrArg State.silence ?_))
  exact State.postKey_nil _ hnone _

theorem State.repeatKey_eq {c : KeyCapture} (hc : (s.key k).capture = some c) : s.repeatKey k
    = (s.setKey k { s.key k with timer := s.repeatTimer k s.prof.repeatInterval }).postKey c (.keyRepeat k) := by
  rw [State.repeatKey, State.postCapture, State.key_setKey_self, hc]

theorem State.acceptUp_eq {c : KeyCapture} (hc : (s.key k).capture = some c) :
    s.acceptUp k = (s.postKey c (.keyUp k)).setKey k ⟨false, 0, none, none⟩ := by
  rw [State.acceptUp, State.postCapture, hc]

theorem State.keys_postKey (s : State) (c : KeyCapture) (body : EventBody) : (s.postKey c body).keys = s.keys :=
  (congrArg State.keys (s.postKey_frame c body)).trans rfl

theorem State.keys_silence (s : State) : s.silence.keys = s.keys :=
  (congrArg State.keys s.silence_frame).trans rfl

/-- `t` is `s` but for what the part holds for the ports and for the keys. -/
def State.PortsAndKeysOnly (s t : State) : Prop := t = { s with ports := t.ports, keys := t.keys }

theorem State.PortsAndKeysOnly.trans {s t u : State} (h : s.PortsAndKeysOnly t) (h' : t.PortsAndKeysOnly u) :
    s.PortsAndKeysOnly u := by
  unfold State.PortsAndKeysOnly at *
  rw [h', h]

theorem State.PortsAndKeysOnly.setKey (s : State) (k : KeyId) (r : KeyRec) : s.PortsAndKeysOnly (s.setKey k r) := rfl

theorem State.PortsAndKeysOnly.postKey (s : State) (c : KeyCapture) (body : EventBody) : s.PortsAndKeysOnly (s.postKey c body) := by
  rw [State.PortsAndKeysOnly, State.keys_postKey]
  exact s.postKey_frame c body

/-- A silence claim made once a key has been written: the ports, the keys and the sounding choice alone have changed. -/
theorem State.silence_setKey_frame (s : State) (k : KeyId) (r : KeyRec) :
    (s.setKey k r).silence = { s with
      ports := (s.setKey k r).silence.ports, keys := (s.setKey k r).silence.keys
      sounding := (s.setKey k r).silence.sounding, sounder := (s.setKey k r).silence.sounder } := by
  rw [State.keys_silence]
  exact State.silence_frame _

/-- A key record reaches each port of a capture, and changes nothing held for another port. The state may differ in what
no post reads, as the keys. -/
theorem State.postKey_told {t : State} (hport : ∀ p, t.port p = s.port p) (htime : t.timeBase = s.timeBase) {c : KeyCapture}
    (hc : c.ports.Nodup) (body : EventBody) (p : Port) :
    (p ∈ c.ports → (t.postKey c body).port p = (s.post p body c.handle).port p)
      ∧ (p ∉ c.ports → (t.postKey c body).port p = s.port p) := by
  rw [t.port_postKey hc, State.port_post_congr (hport p) htime, hport]
  exact ⟨fun hp => if_pos hp, fun hp => if_neg hp⟩

/-- The key that has just been written is the only one that a down report or a repeat changes. -/
theorem State.key_of_keys {t : State} {r : KeyRec} (h : t.keys = (s.setKey k r).keys) (j : KeyId) :
    t.key j = if j = k then r else s.key j :=
  (State.key_congr h j).trans (s.key_setKey k j r)

theorem State.keys_acceptDown (s : State) (k : KeyId) : (s.acceptDown k).keys = (s.setKey k (s.downKey k)).keys := by
  by_cases h : s.prof.routing.get k = .silence
  · rw [State.acceptDown_silence h, State.keys_silence]
  · rw [State.acceptDown_told h, State.keys_postKey]

/-- What a claim leaves a port whose request it ends, in terms of the record that is posted (R163, R165). -/
theorem State.silenced_eq_post {p : Port} {u : Tone} (hu : (s.port p).tone = some u) (hb : u.band ≠ .critical) :
    (s.port p).silenced s.timeBase
      = { (if u.endReport = true then s.post p (.toneEnded u.tag .silenced) none else s).port p with tone := none } := by
  rw [PortRec.silenced_some hu hb]
  cases u.endReport with
  | false => rfl
  | true => simp only [if_true, State.port_post_self]

end Reports

/-- Settles O50: the capture of a down report is what the routing delivers to; a repeat and an up are posted to the capture that the
key has. -/
theorem keyReportsFollowTheirCapture : Obligations.KeyReportsFollowTheirCapture := by
  intro s k hs q timer routed told
  refine ⟨fun hup hripe => ?_, fun c hdown hzero hc hnodup => ?_, fun c hdown hripe hc hnodup => ?_⟩
  · have hnodup := s.nodup_keyDeliveries (s.prof.routing.get k)
    refine ⟨s.acceptDown k, _, (s.keyDeliveries (s.prof.routing.get k)).handle, exec_downReport hs hup hripe, ?_, hnodup,
      State.key_of_keys (s.keys_acceptDown k), fun hroute => ?_, fun hroute => ?_⟩
    · dsimp only [routed]
      cases s.prof.routing.get k with
      | focus =>
        rw [State.keyDeliveries_focus]
        exact ⟨fun p => Option.mem_toList, rfl⟩
      | port n => exact ⟨s.mem_keyDeliveries_port n, s.keyDeliveries_port_handle n⟩
      | all => exact ⟨s.mem_keyDeliveries_all, rfl⟩
      | silence => exact ⟨fun _ => List.not_mem_nil, rfl⟩
      | none => exact ⟨fun _ => List.not_mem_nil, rfl⟩
    · rw [State.acceptDown_told hroute]
      exact ⟨State.postKey_told (s.port_setKey k _) rfl hnodup _, (State.PortsAndKeysOnly.setKey s k _).trans (.postKey _ _ _)⟩
    · rw [State.acceptDown_silence hroute]
      have hport (p : Port) : (s.setKey k (s.downKey k)).silence.port p = (s.port p).silenced s.timeBase := State.port_silence _ p
      refine ⟨s.silence_setKey_frame k _, fun hcritical => ?_, fun p => ⟨fun htone => ?_, fun u hu => ⟨fun hb => ?_, fun hb => ?_⟩⟩⟩
      · have hnone (p : Port) : ¬ ((s.setKey k (s.downKey k)).port p).silenceable = true :=
          PortRec.not_silenceable_iff.2 (hcritical p)
        rw [State.silence_unclaimed hnone]
        rfl
      · exact (hport p).trans (PortRec.silenced_of_not_silenceable (PortRec.not_silenceable_iff.2 (by simp [htone])) _)
      · exact (hport p).trans (PortRec.silenced_of_not_silenceable (PortRec.not_silenceable_iff.2 (by simp [hu, hb])) _)
      · obtain ⟨hsounding, hsounder⟩ := State.silence_chosen (s := s.setKey k (s.downKey k)) hu hb
        exact ⟨hsounding, hsounder, (hport p).trans (State.silenced_eq_post hu hb)⟩
  · refine ⟨s.repeatKey k, exec_repeatReport hs hdown hzero, ?_⟩
    rw [State.repeatKey_eq hc]
    exact ⟨State.postKey_told (s.port_setKey k _) rfl hnodup _, (State.PortsAndKeysOnly.setKey s k _).trans (.postKey _ _ _),
      State.key_of_keys (State.keys_postKey _ c _)⟩
  · refine ⟨s.acceptUp k, exec_upReport hs hdown hripe, ?_⟩
    rw [State.acceptUp_eq hc]
    refine ⟨State.postKey_told (fun _ => rfl) rfl hnodup _, ?_, fun j => ?_⟩
    · exact (State.PortsAndKeysOnly.postKey s c _).trans (.setKey _ k _)
    · rw [State.key_setKey, State.key_congr (s.keys_postKey c _)]

end Sys2Proof.Machine
end

section
namespace Sys2Proof.Machine

-- One theorem is checked at a time, for the memory limit.
set_option Elab.async false

/-! The tone unit (chapter 10): the order of requests, and which of them sounds. -/

/-! ## The order of requests (R158, R159) -/

/-- A request sounds before another: its band is higher, or it is the later start within the band (R159). -/
def Tone.Outranks (t u : Tone) : Prop := u.band.rank < t.band.rank ∨ (u.band = t.band ∧ u.seq < t.seq)

theorem Tone.beats_iff (t u : Tone) : t.beats u = true ↔ t.Outranks u := by
  simp [Tone.beats, Tone.Outranks, eq_comm (a := t.band) (b := u.band)]

theorem Band.eq_of_rank_eq {a b : Band} (h : a.rank = b.rank) : a = b :=
  Option.some.inj (((bandOf_eq_some_iff _ a).2 rfl).symm.trans ((bandOf_eq_some_iff _ b).2 h))

theorem Tone.Outranks.trans {t u v : Tone} (h : t.Outranks u) (h' : u.Outranks v) : t.Outranks v := by
  rcases h with h | ⟨hb, h⟩ <;> rcases h' with h' | ⟨hb', h'⟩
  · exact .inl (h'.trans h)
  · exact .inl (hb' ▸ h)
  · exact .inl (hb ▸ h')
  · exact .inr ⟨hb'.trans hb, h'.trans h⟩

theorem Tone.Outranks.irrefl {t : Tone} (h : t.Outranks t) : False := by
  rcases h with h | ⟨-, h⟩ <;> exact Nat.lt_irrefl _ h

/-- Of two requests with different start sequence numbers one sounds before the other. -/
theorem Tone.outranks_of_not {t u : Tone} (hseq : u.seq ≠ t.seq) (h : ¬ t.Outranks u) : u.Outranks t := by
  obtain ⟨hband, hlater⟩ := not_or.1 h
  rcases Nat.lt_or_eq_of_le (Nat.not_lt.1 hband) with hlt | heq
  · exact .inl hlt
  · have hb : t.band = u.band := Band.eq_of_rank_eq heq
    exact .inr ⟨hb, Nat.lt_of_le_of_ne (Nat.not_lt.1 fun hlt => hlater ⟨hb.symm, hlt⟩) hseq.symm⟩

/-! ## The sounding choice (R159) -/

section Choosing

variable {s t : State} {l : List Port} {best : Option Port}

/-- Different ports' requests have different start sequence numbers (R158). -/
def State.StartsDistinct (s : State) : Prop :=
  ∀ p q t u, (s.port p).tone = some t → (s.port q).tone = some u → t.seq = u.seq → p = q

/-- The port `p` has a request that sounds before those of the other ports of `l`. -/
def State.LeadsIn (s : State) (l : List Port) (p : Port) : Prop :=
  ∃ t, (s.port p).tone = some t ∧ ∀ q ∈ l, ∀ u, q ≠ p → (s.port q).tone = some u → t.Outranks u

/-- What the choice among the ports of `l` is to be: no port where none of them has a request, and else one that leads them. -/
def State.BestIn (s : State) (l : List Port) : Option Port → Prop
  | none => ∀ q ∈ l, (s.port q).tone = none
  | some p => s.LeadsIn l p

/-- Another port takes part in the choice. -/
theorem State.BestIn.step (hd : s.StartsDistinct) (h : s.BestIn l best) (p : Port) : s.BestIn (p :: l) (s.soundStep best p) := by
  unfold State.soundStep
  cases hp : (s.port p).tone with
  | none =>
    cases best with
    | none => exact List.forall_mem_cons.2 ⟨hp, h⟩
    | some b =>
      obtain ⟨v, hv, hleads⟩ := h
      exact ⟨v, hv, List.forall_mem_cons.2 ⟨fun u _ hu => (nomatch hp.symm.trans hu), hleads⟩⟩
  | some t =>
    cases best with
    | none =>
      exact ⟨t, hp, List.forall_mem_cons.2 ⟨fun u hne => absurd rfl hne, fun q hq u _ hu => nomatch (h q hq).symm.trans hu⟩⟩
    | some b =>
      obtain ⟨v, hv, hleads⟩ := h
      simp only [Option.bind_some, hv]
      by_cases hbeats : t.Outranks v
      · rw [if_pos ((t.beats_iff v).2 hbeats)]
        refine ⟨t, hp, List.forall_mem_cons.2 ⟨fun u hne => absurd rfl hne, fun q hq u _ hu => ?_⟩⟩
        by_cases hqb : q = b
        · obtain rfl : v = u := Option.some.inj (hv.symm.trans (hqb ▸ hu))
          exact hbeats
        · exact hbeats.trans (hleads q hq u hqb hu)
      · rw [if_neg (mt (t.beats_iff v).1 hbeats)]
        refine ⟨v, hv, List.forall_mem_cons.2 ⟨fun u hne hu => ?_, hleads⟩⟩
        obtain rfl : t = u := Option.some.inj (hp.symm.trans hu)
        exact Tone.outranks_of_not (fun hseq => hne (hd p b t v hp hv hseq.symm)) hbeats

theorem State.BestIn.foldl (hd : s.StartsDistinct) (ps : List Port) (h : s.BestIn l best) :
    s.BestIn (ps.reverse ++ l) (ps.foldl s.soundStep best) := by
  induction ps generalizing l best with
  | nil => exact h
  | cons p ps ih =>
    rw [List.reverse_cons, List.append_assoc]
    exact ih (h.step hd p)

theorem State.soundingChoice_best (hd : s.StartsDistinct) : s.BestIn allPorts.reverse s.soundingChoice :=
  List.append_nil allPorts.reverse ▸ State.BestIn.foldl hd allPorts (best := none) (List.forall_mem_nil _)

theorem mem_allPorts_reverse (p : Port) : p ∈ allPorts.reverse := by
  revert p
  decide

/-- No two ports lead all ports. -/
theorem State.LeadsIn.unique {p q : Port} (hp : s.LeadsIn l p) (hq : s.LeadsIn l q) (hpl : p ∈ l) (hql : q ∈ l) : q = p := by
  obtain ⟨t, ht, hleads⟩ := hp
  obtain ⟨u, hu, hleads'⟩ := hq
  by_contra hne
  exact ((hleads q hql u hne hu).trans (hleads' p hpl t (Ne.symm hne) ht)).irrefl

theorem State.soundingChoice_eq_none_iff (hd : s.StartsDistinct) : s.soundingChoice = none ↔ ∀ p, (s.port p).tone = none := by
  have hbest := s.soundingChoice_best hd
  cases hc : s.soundingChoice with
  | none =>
    rw [hc] at hbest
    exact iff_of_true rfl fun p => hbest p (mem_allPorts_reverse p)
  | some p =>
    rw [hc] at hbest
    obtain ⟨t, ht, -⟩ := hbest
    exact iff_of_false nofun fun hnone => nomatch (hnone p).symm.trans ht

theorem State.soundingChoice_eq_some_iff (hd : s.StartsDistinct) (p : Port) :
    s.soundingChoice = some p ↔ s.LeadsIn allPorts.reverse p := by
  have hbest := s.soundingChoice_best hd
  constructor <;> intro h
  · rwa [h] at hbest
  · cases hc : s.soundingChoice with
    | none =>
      obtain ⟨t, ht, -⟩ := h
      exact nomatch ((State.soundingChoice_eq_none_iff hd).1 hc p).symm.trans ht
    | some q =>
      rw [hc] at hbest
      rw [h.unique hbest (mem_allPorts_reverse p) (mem_allPorts_reverse q)]

end Choosing

/-- Settles O43: the choice goes through the ports one by one, and the port it holds leads all those it has seen. -/
theorem theHighestLatestRequestSounds : Obligations.TheHighestLatestRequestSounds := by
  intro s hs
  rw [hs.choice]
  refine ⟨State.soundingChoice_eq_none_iff hs.distinct, fun p => (State.soundingChoice_eq_some_iff hs.distinct p).trans ?_⟩
  refine exists_congr fun t => and_congr_right fun _ => ⟨fun h q => h q (mem_allPorts_reverse q), fun h q _ => h q⟩

end Sys2Proof.Machine
end

section
namespace Sys2Proof.Machine

-- One theorem is checked at a time, for the memory limit.
set_option Elab.async false

/-! The requests: the operands of TONE_START, what the end and the start of a request change, and a request's own time. -/

/-! ## The operands of TONE_START (R160, R174, Table 10-1) -/

theorem tonePatternOf_eq (n : Nat) : tonePatternOf n = [TonePattern.steady, .pulsed, .chirp][n]? := by
  match n with
  | 0 | 1 | 2 => rfl
  | n + 3 => simp [tonePatternOf]

theorem pitchOf_eq (n : Nat) : pitchOf n = [Pitch.low, .high][n]? := by
  match n with
  | 0 | 1 => rfl
  | n + 2 => simp [pitchOf]

theorem boolOf_eq_some_iff (n : Nat) (b : Bool) : boolOf n = some b ↔ n = if b = true then 1 else 0 := by
  match n with
  | 0 | 1 => cases b <;> decide
  | n + 2 => cases b <;> simp [boolOf]

theorem toneOperands_eq_some_iff (pl : List Byte) (o : ToneOperands) : toneOperands pl = some o ↔
    (tonePatternOf (byteAt pl 0) = some o.pattern ∧ pitchOf (byteAt pl 1) = some o.pitch ∧ bandOf (byteAt pl 2) = some o.band
      ∧ boolOf (byteAt pl 6) = some o.endReport)
    ∧ pl.length = 7 ∧ o.duration = wordAt pl 3 ∧ o.duration ≤ 600 ∧ o.tag = pl.getD 5 0 := by
  obtain ⟨pattern, pitch, band, duration, tag, endReport⟩ := o
  unfold toneOperands
  split
  · rename_i a b c e ha hb hc he
    rw [ha, hb, hc, he]
    simp only [Option.ite_none_right_eq_some, Option.some.injEq, ToneOperands.mk.injEq]
    constructor
    · rintro ⟨⟨hl, hd⟩, rfl, rfl, rfl, rfl, rfl, rfl⟩
      exact ⟨⟨rfl, rfl, rfl, rfl⟩, hl, rfl, hd, rfl⟩
    · rintro ⟨⟨rfl, rfl, rfl, rfl⟩, hl, rfl, hd, rfl⟩
      exact ⟨⟨hl, hd⟩, rfl, rfl, rfl, rfl, rfl, rfl⟩
  · rename_i hnone
    exact iff_of_false nofun fun ⟨⟨ha, hb, hc, he⟩, _⟩ => hnone _ _ _ _ ha hb hc he

/-! ## What ends and starts change (R158 to R161, R165) -/

section Requests

variable {s u v : State} {p : Port} {n : Nat}

/-- The state in which the end of a port's request has been told, where the request asked for it (R165). -/
def State.tellEnd (s : State) (p : Port) (reason : ToneReason) : State :=
  match (s.port p).tone with
  | some t => if t.endReport = true then s.post p (.toneEnded t.tag reason) none else s
  | none => s

theorem State.tellEnd_some {t : Tone} (h : (s.port p).tone = some t) (reason : ToneReason) :
    s.tellEnd p reason = if t.endReport = true then s.post p (.toneEnded t.tag reason) none else s := by
  rw [State.tellEnd, h]

theorem State.tellEnd_none (h : (s.port p).tone = none) (reason : ToneReason) : s.tellEnd p reason = s := by
  rw [State.tellEnd, h]

theorem State.tellEnd_records (s : State) (p : Port) (reason : ToneReason) : s.RecordsOnly (s.tellEnd p reason) := by
  unfold State.tellEnd
  split
  · split
    · exact s.post_records p _ _
    · exact .refl s
  · exact .refl s

/-- `u` is `s` with other requests of the port `p`: the ports, the start sequence and the sounding choice may differ. -/
structure State.Retuned (s : State) (p : Port) (n : Nat) (u : State) : Prop where
  frame : u = { s with ports := u.ports, toneSeq := n, sounding := u.sounding, sounder := u.sounder }
  others : SameOthers s u p

theorem State.Retuned.trans {m : Nat} (h : s.Retuned p n u) (h' : u.Retuned p m v) : s.Retuned p m v :=
  ⟨by rw [h'.frame, h.frame], fun q hq => (h'.others q hq).trans (h.others q hq)⟩

/-- The sounding choice stands as it is made from the requests (R159). -/
def State.Attuned (s : State) : Prop := s.sounding = s.soundingChoice ∧ s.sounder = s.drivenPitch s.soundingChoice

theorem State.attuned_chooseTone (s : State) : s.chooseTone.Attuned := ⟨rfl, rfl⟩

theorem State.Retuned.chosen (h : s.Retuned p n u) (hu : u.Attuned) :
    u = { s with ports := u.ports, toneSeq := n, sounding := u.soundingChoice, sounder := u.drivenPitch u.soundingChoice } := by
  rw [← hu.2, ← hu.1]
  exact h.frame

theorem State.endTone_none (h : (s.port p).tone = none) (reason : ToneReason) : s.endTone p reason = s := by
  rw [State.endTone, h]

/-- The end of a request, once it has been told, and the choice made again. -/
theorem State.endTone_told (h : (s.port p).tone ≠ none) (reason : ToneReason) :
    s.endTone p reason = (s.setPort p { (s.tellEnd p reason).port p with tone := none }).chooseTone := by
  obtain ⟨t, ht⟩ := Option.ne_none_iff_exists'.1 h
  rw [State.endTone_some ht, State.tellEnd_some ht]
  split
  · rw [State.port_post_self]
  · rfl

theorem State.port_endTone (s : State) (p : Port) (reason : ToneReason) :
    (s.endTone p reason).port p = { (s.tellEnd p reason).port p with tone := none } := by
  by_cases h : (s.port p).tone = none
  · rw [State.endTone_none h, State.tellEnd_none h]
    exact congrArg (fun t => { s.port p with tone := t }) h
  · rw [State.endTone_told h]
    exact State.port_setPort_self s p _

theorem State.retuned_endTone (s : State) (p : Port) (reason : ToneReason) : s.Retuned p s.toneSeq (s.endTone p reason) := by
  by_cases h : (s.port p).tone = none
  · rw [State.endTone_none h]
    exact ⟨rfl, fun _ _ => rfl⟩
  · rw [State.endTone_told h]
    exact ⟨rfl, fun q hq => State.port_setPort_ne s _ hq⟩

theorem State.attuned_endTone (h : (s.port p).tone ≠ none) (reason : ToneReason) : (s.endTone p reason).Attuned := by
  rw [State.endTone_told h]
  exact State.attuned_chooseTone _

theorem EndsAlike.endTone (s : State) (p : Port) (reason : ToneReason) : EndsAlike p s (s.endTone p reason) := by
  obtain ⟨hstate, hstop, -⟩ := (s.tellEnd_records p reason).keeps p
  rw [EndsAlike, State.port_endTone, (s.retuned_endTone p reason).frame]
  exact ⟨hstate, hstop, rfl⟩

theorem State.port_beginTone (s : State) (p : Port) (o : ToneOperands) :
    (s.beginTone p o).port p = { s.port p with tone := some (newTone o s.toneSeq) } := State.port_setPort_self s p _

theorem State.retuned_beginTone (s : State) (p : Port) (o : ToneOperands) : s.Retuned p (s.toneSeq + 1) (s.beginTone p o) :=
  ⟨rfl, fun _ hq => State.port_setPort_ne s _ hq⟩

/-! ## TONE_START -/

/-- The request of a port has been replaced by a new one (R158, R161). -/
def State.replaceTone (s : State) (p : Port) (o : ToneOperands) : State := (s.endTone p .replaced).beginTone p o

theorem State.retuned_replaceTone (s : State) (p : Port) (o : ToneOperands) : s.Retuned p (s.toneSeq + 1) (s.replaceTone p o) := by
  have hend := s.retuned_endTone p .replaced
  have hseq : (s.endTone p .replaced).toneSeq = s.toneSeq := by rw [hend.frame]
  exact hend.trans (hseq ▸ State.retuned_beginTone _ p o)

theorem State.port_replaceTone (s : State) (p : Port) (o : ToneOperands) :
    (s.replaceTone p o).port p = { (s.tellEnd p .replaced).port p with tone := some (newTone o s.toneSeq) } := by
  have hseq : (s.endTone p .replaced).toneSeq = s.toneSeq := by rw [(s.retuned_endTone p .replaced).frame]
  rw [State.replaceTone, State.port_beginTone, State.port_endTone, hseq]

theorem EndsAlike.replaceTone (s : State) (p : Port) (o : ToneOperands) : EndsAlike p s (s.replaceTone p o) := by
  obtain ⟨hstate, hstop, -⟩ := (s.tellEnd_records p .replaced).keeps p
  rw [EndsAlike, State.port_replaceTone, (s.retuned_replaceTone p o).frame]
  exact ⟨hstate, hstop, rfl⟩

/-- The port has lapsed, so that a BASE request of its ends as soon as it has started (R164). -/
abbrev State.LosesTone (s : State) (p : Port) (o : ToneOperands) : Prop := (s.port p).state = .lapsed ∧ o.band = .base

theorem State.startTone_kept {o : ToneOperands} (h : ¬ s.LosesTone p o) : s.startTone p o = s.replaceTone p o := if_neg h

theorem State.startTone_lost {o : ToneOperands} (h : s.LosesTone p o) : s.startTone p o = (s.replaceTone p o).endTone p .lapsed :=
  if_pos h

theorem State.retuned_startTone (s : State) (p : Port) (o : ToneOperands) : s.Retuned p (s.toneSeq + 1) (s.startTone p o) := by
  have hnew := s.retuned_replaceTone p o
  by_cases h : s.LosesTone p o
  · have hseq : (s.replaceTone p o).toneSeq = s.toneSeq + 1 := by rw [hnew.frame]
    rw [State.startTone_lost h]
    exact hnew.trans (hseq ▸ State.retuned_endTone _ p .lapsed)
  · rw [State.startTone_kept h]
    exact hnew

theorem State.tone_replaceTone (s : State) (p : Port) (o : ToneOperands) :
    ((s.replaceTone p o).port p).tone = some (newTone o s.toneSeq) := by rw [State.port_replaceTone]

theorem State.attuned_startTone (s : State) (p : Port) (o : ToneOperands) : (s.startTone p o).Attuned := by
  by_cases h : s.LosesTone p o
  · rw [State.startTone_lost h]
    exact State.attuned_endTone (by rw [State.tone_replaceTone]; exact Option.some_ne_none _) _
  · rw [State.startTone_kept h]
    exact State.attuned_chooseTone _

theorem EndsAlike.startTone (s : State) (p : Port) (o : ToneOperands) : EndsAlike p s (s.startTone p o) := by
  have hnew := EndsAlike.replaceTone s p o
  by_cases h : s.LosesTone p o
  · obtain ⟨hstate, hstop, hwaiting⟩ := hnew
    obtain ⟨hstate', hstop', hwaiting'⟩ := EndsAlike.endTone (s.replaceTone p o) p .lapsed
    rw [State.startTone_lost h]
    exact ⟨hstate'.trans hstate, hstop'.trans hstop, hwaiting'.trans hwaiting⟩
  · rw [State.startTone_kept h]
    exact hnew

/-- A request that is lost as it starts is told of after the one it replaced (R164, R165). -/
theorem State.port_startTone_lost {o : ToneOperands} (h : s.LosesTone p o) : (s.startTone p o).port p
    = { (if o.endReport = true then (s.tellEnd p .replaced).post p (.toneEnded o.tag .lapsed) none else s.tellEnd p .replaced).port p with
        tone := none } := by
  have htime : (s.replaceTone p o).timeBase = (s.tellEnd p .replaced).timeBase := by
    rw [(s.retuned_replaceTone p o).frame, (s.tellEnd_records p .replaced).1]
  rw [State.startTone_lost h, State.port_endTone, State.tellEnd_some (s.tone_replaceTone p o)]
  change { (if o.endReport = true then (s.replaceTone p o).post p (.toneEnded o.tag .lapsed) none
    else s.replaceTone p o).port p with tone := none } = _
  split
  · rw [State.port_post_self, State.port_post_self, State.port_replaceTone, htime, PortRec.post_tone]
  · rw [State.port_replaceTone]

theorem exec_toneStart_takes {c : QCmd} {o : ToneOperands} (h : Serves s p .toneStart c) (ho : toneOperands c.payload = some o)
    (hb : o.band.rank ≤ (s.portProf p).maxBand.rank) :
    exec (.toneStart p) s = .next ((s.startTone p o).concludes p c .ok .none 0) :=
  exec_takes rfl h (by rw [ho]; exact if_neg (Nat.not_lt.2 hb)) (.startTone s p o)

end Requests

/-- Settles O41: the operands by their codes, the checks in their order, and the ends and the start that an accepted command makes. -/
theorem toneCommandsStartAndStopRequests : Obligations.ToneCommandsStartAndStopRequests := by
  refine ⟨fun pl o => ?_, fun s p c => ⟨fun hserves => ⟨fun ho => ?_, fun o ho => ⟨fun hb => ?_, fun hb => ?_⟩⟩,
    fun hserves => ⟨fun hl => ?_, fun hl hnone => ?_, fun hl hsome => ?_⟩⟩⟩
  · rw [toneOperands_eq_some_iff, tonePatternOf_eq, pitchOf_eq, bandOf_eq_some_iff, boolOf_eq_some_iff]
    constructor
    · rintro ⟨⟨ha, hp, hb, he⟩, hl, hd, hmax, ht⟩
      exact ⟨hl, ha, hp, hb, hd, hmax, ht, he⟩
    · rintro ⟨hl, ha, hp, hb, hd, hmax, ht, he⟩
      exact ⟨⟨ha, hp, hb, he⟩, hl, hd, hmax, ht⟩
  · exact exec_refused rfl hserves (by rw [ho])
  · exact exec_refused rfl hserves (by rw [ho]; exact if_pos hb)
  · have hnew := s.retuned_startTone p o
    refine ⟨_, exec_toneStart_takes hserves ho hb, ⟨hnew.chosen (s.attuned_startTone p o), hnew.others⟩, fun hkept => ?_, fun hlost => ?_⟩
    · rw [State.startTone_kept hkept, if_neg fun h => hkept h.1]
      exact s.port_replaceTone p o
    · simp only [hlost, true_and]
      exact State.port_startTone_lost hlost
  · exact exec_refused rfl hserves (if_neg hl)
  · exact exec_takes rfl hserves ((if_pos hl).trans (by rw [State.endTone_none hnone]))
  · have hended := s.retuned_endTone p .stopped
    exact ⟨_, exec_takes rfl hserves (if_pos hl) (.endTone s p .stopped),
      ⟨hended.chosen (State.attuned_endTone hsome _), hended.others⟩, s.port_endTone p .stopped⟩

/-! ## A request's own time (R159, R162, R184) -/

theorem Tone.onPhase_iff (t : Tone) : t.onPhase = true ↔
    t.pattern = .steady ∨ (t.pattern = .pulsed ∧ t.age % 400 < 200) ∨ (t.pattern = .chirp ∧ t.age < 40) := by
  unfold Tone.onPhase
  cases t.pattern <;> simp

theorem State.drivenPitch_some {s : State} {p : Port} {t : Tone} (h : (s.port p).tone = some t) :
    s.drivenPitch (some p) = if t.onPhase then some t.pitch else none := by
  simp only [State.drivenPitch, Option.bind_some, h]

theorem exec_tonePhaseChange (s : State) : exec .tonePhaseChange s = .next { s with sounder := s.drivenPitch s.sounding } := rfl

theorem exec_toneExpiry (s : State) (p : Port) :
    exec (.toneExpiry p) s = .next (if s.toneDue p then s.endTone p .elapsed else s) := rfl

theorem State.toneDue_some {s : State} {p : Port} {t : Tone} (h : (s.port p).tone = some t) : s.toneDue p = true ↔
    (t.pattern = .chirp ∧ 40 ≤ t.age) ∨ (t.pattern ≠ .chirp ∧ t.duration ≠ 0 ∧ 100 * t.duration ≤ t.age) := by
  rw [State.toneDue_eq, h]
  exact decide_eq_true_iff

/-- Settles O42: the expiry by the end time of the request's pattern, the phase by its age, and the pair by what is driven. -/
theorem tonesRunOnTheirOwnTime : Obligations.TonesRunOnTheirOwnTime := by
  refine ⟨fun s p => ⟨fun hnone => ?_, fun t ht => ⟨fun hdue => ?_, fun hdue => ?_⟩⟩,
    fun s => ⟨fun hnone => ?_, fun p t hp ht => ⟨fun hon => ?_, fun hoff => ?_⟩⟩, fun s wave => ⟨fun h => ?_, fun pitch h => ?_⟩⟩
  · rw [exec_toneExpiry, State.endTone_none hnone, ite_self]
  · rw [exec_toneExpiry, if_neg (mt (State.toneDue_some ht).1 hdue)]
  · have hsome : (s.port p).tone ≠ none := by simp [ht]
    have hended := s.retuned_endTone p .elapsed
    refine ⟨_, by rw [exec_toneExpiry, if_pos ((State.toneDue_some ht).2 hdue)],
      hended.chosen (State.attuned_endTone hsome _), hended.others, ?_⟩
    rw [State.port_endTone, State.tellEnd_some ht]
  · rw [exec_tonePhaseChange, hnone]
    rfl
  · rw [exec_tonePhaseChange, hp, State.drivenPitch_some ht, if_pos (t.onPhase_iff.2 hon)]
  · rw [exec_tonePhaseChange, hp, State.drivenPitch_some ht, if_neg (mt t.onPhase_iff.1 hoff)]
  · rw [State.tonePair, h]
    exact ⟨rfl, rfl⟩
  · rw [State.tonePair, h]
    cases pitch <;> exact ⟨rfl, rfl⟩

end Sys2Proof.Machine
end

section
namespace Sys2Proof.Machine

-- One theorem is checked at a time, for the memory limit.
set_option Elab.async false

/-! Every step keeps the sounding request the tone unit's choice. A step ends requests and starts them only where it makes the choice
again, and each request that starts takes the next start sequence number. -/

/-! ## Changes that keep the choice (R158, R159) -/

/-- If the sounding request is the tone unit's choice in `s`, it is so in `t`. -/
def KeepsSound (s t : State) : Prop := s.SoundAgrees → t.SoundAgrees

/-- The start sequence numbers of the requests are distinct and below the next (R158). -/
structure State.StartsOrdered (s : State) : Prop where
  started : ∀ p t, (s.port p).tone = some t → t.seq < s.toneSeq
  distinct : s.StartsDistinct

/-- `u` has requests of `s` only, and the next start sequence number of `s`. -/
structure State.Quietens (s u : State) : Prop where
  seq : u.toneSeq = s.toneSeq
  tone : ∀ p t, (u.port p).tone = some t → (s.port p).tone = some t

section Sounding

variable {s t u : State} {p : Port}

theorem KeepsSound.refl (s : State) : KeepsSound s s := id

theorem KeepsSound.trans (h : KeepsSound s t) (h' : KeepsSound t u) : KeepsSound s u := h' ∘ h

theorem State.SoundAgrees.ordered (hs : s.SoundAgrees) : s.StartsOrdered := ⟨hs.started, hs.distinct⟩

/-- Requests in order are enough where the choice is made again. -/
theorem State.StartsOrdered.chooseTone (hs : s.StartsOrdered) : s.chooseTone.SoundAgrees := ⟨rfl, hs.started, hs.distinct⟩

/-- A change that the tone unit does not see. -/
theorem KeepsSound.of_tones (h : ∀ p, (t.port p).tone = (s.port p).tone) (hn : t.toneSeq = s.toneSeq := by rfl)
    (hc : t.sounding = s.sounding := by rfl) : KeepsSound s t := by
  intro hs
  refine ⟨?_, fun p a ha => ?_, fun p q a b ha hb => hs.distinct p q a b (h p ▸ ha) (h q ▸ hb)⟩
  · rw [hc, hs.choice, State.soundingChoice_congr h]
  · rw [hn]
    exact hs.started p a (h p ▸ ha)

/-- A change of fields that are neither the ports' nor the tone unit's. -/
theorem KeepsSound.of_rest (hp : t.ports = s.ports := by rfl) (hn : t.toneSeq = s.toneSeq := by rfl)
    (hc : t.sounding = s.sounding := by rfl) : KeepsSound s t :=
  .of_tones (fun p => by rw [State.port, hp, State.ports_get]) hn hc

/-- A change of what a port holds other than its request. -/
theorem KeepsSound.of_port (s : State) (p : Port) (r : PortRec) (h : r.tone = (s.port p).tone := by rfl) :
    KeepsSound s (s.setPort p r) := by
  refine .of_tones fun q => ?_
  rw [State.port_setPort]
  split
  · rename_i hq
    rw [h, hq]
  · rfl

theorem State.RecordsOnly.tone (h : s.RecordsOnly t) (p : Port) : (t.port p).tone = (s.port p).tone := by
  rw [h.2 p]

theorem KeepsSound.of_records (h : s.RecordsOnly t) : KeepsSound s t :=
  .of_tones h.tone (by rw [h.1]) (by rw [h.1])

theorem KeepsSound.post (s : State) (p : Port) (body : EventBody) (h : Option Handle) : KeepsSound s (s.post p body h) :=
  .of_records (s.post_records p body h)

theorem KeepsSound.foldl {α : Type} (l : List α) (f : State → α → State) (hf : ∀ (s : State) a, KeepsSound s (f s a)) (s : State) :
    KeepsSound s (l.foldl f s) := by
  induction l generalizing s with
  | nil => exact .refl s
  | cons a l ih => exact (hf s a).trans (ih _)

theorem KeepsSound.ite (c : Prop) [Decidable c] (h : c → KeepsSound s t) : KeepsSound s (if c then t else s) := by
  split
  · exact h ‹_›
  · exact .refl s

/-! ## Requests that end and start -/

theorem State.StartsOrdered.quietens (hs : s.StartsOrdered) (h : s.Quietens u) : u.StartsOrdered :=
  ⟨fun p a ha => h.seq ▸ hs.started p a (h.tone p a ha),
    fun p q a b ha hb => hs.distinct p q a b (h.tone p a ha) (h.tone q b hb)⟩

/-- Requests have ended, and the choice is made again. -/
theorem KeepsSound.choose (h : s.Quietens u) : KeepsSound s u.chooseTone := fun hs => (hs.ordered.quietens h).chooseTone

/-- A port's request ends, whatever else changes of what the port holds. -/
theorem State.Quietens.setPort (s : State) (p : Port) (r : PortRec) (h : r.tone = none) : s.Quietens (s.setPort p r) := by
  refine ⟨rfl, fun q a ha => ?_⟩
  rw [State.port_setPort] at ha
  split at ha
  · exact nomatch h.symm.trans ha
  · exact ha

theorem State.Quietens.records (h : s.Quietens t) (hr : t.RecordsOnly u) : s.Quietens u :=
  ⟨by rw [hr.1]; exact h.seq, fun p a ha => h.tone p a (hr.tone p ▸ ha)⟩

theorem KeepsSound.endTone (s : State) (p : Port) (reason : ToneReason) : KeepsSound s (s.endTone p reason) := by
  rcases s.endTone_cases p reason with ⟨-, h⟩ | ⟨u, hr, h⟩ <;> rw [h]
  · exact .refl s
  · exact .choose ((State.Quietens.setPort s p _ rfl).records hr)

theorem KeepsSound.endToneIf (s : State) (p : Port) (bands : Band → Bool) (reason : ToneReason) :
    KeepsSound s (s.endToneIf p bands reason) := by
  unfold State.endToneIf
  split
  · exact .refl s
  · exact .ite _ fun _ => .endTone s p reason

theorem KeepsSound.silence (s : State) : KeepsSound s s.silence := .foldl _ _ (fun s p => .endToneIf s p _ _) s

/-- A request starts with the next start sequence number, above those of all other requests (R158). -/
theorem KeepsSound.beginTone (s : State) (p : Port) (o : ToneOperands) : KeepsSound s (s.beginTone p o) := by
  intro hs
  have htone (q : Port) (a : Tone) (ha : ((s.setPort p { s.port p with tone := some (newTone o s.toneSeq) }).port q).tone = some a) :
      (q = p ∧ a.seq = s.toneSeq) ∨ (s.port q).tone = some a := by
    rw [State.port_setPort] at ha
    split at ha
    · exact .inl ⟨‹_›, congrArg Tone.seq (Option.some.inj ha).symm⟩
    · exact .inr ha
  refine State.StartsOrdered.chooseTone ⟨fun q a ha => ?_, fun q r a b ha hb hseq => ?_⟩
  · rcases htone q a ha with ⟨-, h⟩ | h
    · exact Nat.lt_succ_of_le h.le
    · exact Nat.lt_succ_of_lt (hs.started q a h)
  · rcases htone q a ha with ⟨hq, hnew⟩ | hold <;> rcases htone r b hb with ⟨hr, hnew'⟩ | hold'
    · exact hq.trans hr.symm
    · exact absurd (hseq.symm.trans hnew) (hs.started r b hold').ne
    · exact absurd (hseq.trans hnew') (hs.started q a hold).ne
    · exact hs.distinct q r a b hold hold' hseq

theorem KeepsSound.startTone (s : State) (p : Port) (o : ToneOperands) : KeepsSound s (s.startTone p o) := by
  have hstart : KeepsSound s ((s.endTone p .replaced).beginTone p o) := (KeepsSound.endTone s p _).trans (.beginTone _ p o)
  unfold State.startTone
  simp only
  split
  · exact hstart.trans (.endTone _ p _)
  · exact hstart

/-- A millisecond ages every request alike, so the choice stands (R158). -/
theorem KeepsSound.advanceTime (s : State) : KeepsSound s s.advanceTime := by
  have htone (p : Port) : (s.advanceTime.port p).tone = (s.port p).tone.map (fun a => { a with age := a.age + 1 }) := by
    rw [State.port_advanceTime]
    rfl
  have hstep : s.advanceTime.soundStep = s.soundStep := by
    funext best p
    simp only [State.soundStep, htone]
    cases (s.port p).tone with
    | none => rfl
    | some a =>
      cases best with
      | none => rfl
      | some b =>
        simp only [Option.bind_some]
        cases (s.port b).tone <;> rfl
  have hold {p : Port} {a : Tone} (ha : (s.advanceTime.port p).tone = some a) : ∃ b, (s.port p).tone = some b ∧ b.seq = a.seq := by
    obtain ⟨b, hb, rfl⟩ := Option.map_eq_some_iff.1 (htone p ▸ ha)
    exact ⟨b, hb, rfl⟩
  intro hs
  refine ⟨hs.choice.trans (congrArg (allPorts.foldl · none) hstep.symm), fun p a ha => ?_, fun p q a a' ha ha' hseq => ?_⟩
  · obtain ⟨b, hb, hseq⟩ := hold ha
    exact hseq ▸ hs.started p b hb
  · obtain ⟨b, hb, hba⟩ := hold ha
    obtain ⟨b', hb', hba'⟩ := hold ha'
    exact hs.distinct p q b b' hb hb' (hba.trans (hseq.trans hba'.symm))

/-! ## Windows, focus and capture -/

theorem KeepsSound.recomputeExposure (s : State) : KeepsSound s s.recomputeExposure :=
  .trans .of_rest (.of_records s.recomputeExposure_records)

theorem KeepsSound.withdrawFocus (s : State) (h : Handle) (owner : Port) (reason : FocusReason) :
    KeepsSound s (s.withdrawFocus h owner reason) :=
  .trans .of_rest (.of_records (s.withdrawFocus_records h owner reason))

theorem KeepsSound.moveFocus (s : State) (w : Window) : KeepsSound s (s.moveFocus w) :=
  .trans .of_rest (.of_records (s.moveFocus_records w))

theorem KeepsSound.lapseFocus (s : State) (p : Port) : KeepsSound s (s.lapseFocus p) := by
  unfold State.lapseFocus
  split
  · exact .refl s
  · exact .ite _ fun _ => .withdrawFocus s _ p _

theorem KeepsSound.releaseFocus (s : State) (p : Port) : KeepsSound s (s.releaseFocus p) := by
  unfold State.releaseFocus
  split
  · exact .refl s
  · exact .ite _ fun _ => .withdrawFocus s _ p _

theorem KeepsSound.cancelLapsed (s : State) (p : Port) : KeepsSound s (s.cancelLapsed p) := by
  rcases s.cancelLapsed_cases p with ⟨h, -, hr⟩ | ⟨-, hr⟩
  · exact .trans .of_rest (.of_records hr)
  · rw [hr]
    exact .refl s

theorem KeepsSound.removeWindow (s : State) (w : Window) : KeepsSound s (s.removeWindow w) := by
  obtain ⟨u, c, -, hr, h⟩ := s.removeWindow_cases w
  rw [h]
  refine KeepsSound.trans (t := s.removed w _ c) ?_ ((KeepsSound.of_records hr).trans (.recomputeExposure u))
  exact KeepsSound.trans .of_rest (.of_port _ w.owner _)

/-! ## Lapse, closing and teardown -/

theorem KeepsSound.completeTeardown (s : State) (p : Port) : KeepsSound s (s.completeTeardown p) := by
  rcases s.completeTeardown_cases p with ⟨-, h⟩ | ⟨-, h⟩ <;> rw [h]
  · exact .refl s
  · exact .of_port s p _

theorem KeepsSound.teardownNotice (s : State) (p : Port) : KeepsSound s (s.teardownNotice p) :=
  .trans .of_rest (.completeTeardown _ p)

theorem KeepsSound.teardownStep (s : State) (p : Port) : KeepsSound s (s.teardownStep p) := by
  unfold State.teardownStep
  split
  · exact .refl s
  · exact (KeepsSound.removeWindow s _).trans (.completeTeardown _ p)

theorem KeepsSound.takeWaitingRemoval (s : State) : KeepsSound s s.takeWaitingRemoval := by
  have hclear : KeepsSound s { s with waitingRemoval := none } := .of_rest
  rcases s.takeWaitingRemoval_cases with ⟨-, h⟩ | ⟨p, -, h⟩ <;> rw [h]
  · exact .refl s
  · exact hclear.trans (.ite _ fun _ => .teardownStep _ p)

theorem KeepsSound.comeRemoval (s : State) (p : Port) : KeepsSound s (s.comeRemoval p) := by
  rcases s.comeRemoval_cases p with ⟨-, h⟩ | ⟨-, h⟩ <;> rw [h]
  · exact .of_rest
  · exact .teardownStep s p

/-- A port that enters CLOSING has its request end, and the choice is made again (R164). -/
theorem KeepsSound.enterClosing (s : State) (p : Port) : KeepsSound s (s.enterClosing p) := by
  have hclosed : KeepsSound s (s.closed p) := .choose ⟨rfl, (State.Quietens.setPort s p (s.port p).close rfl).tone⟩
  have hexposed : KeepsSound s (s.closedExposed p) := by
    unfold State.closedExposed
    split
    · exact hclosed.trans (.recomputeExposure _)
    · exact hclosed
  rw [State.enterClosing_eq]
  split
  · exact hexposed
  · exact (hexposed.trans (.of_port _ p _)).trans (.teardownNotice _ p)

theorem KeepsSound.lapse (s : State) (p : Port) : KeepsSound s (s.lapse p) := by
  have hset : KeepsSound s (s.setPort p ((s.port p).lapse (s.portProf p).gracePeriod)) := .of_port s p _
  exact hset.trans (((((KeepsSound.post _ p _ _).trans (.lapseFocus _ p)).trans (.cancelLapsed _ p)).trans (.endToneIf _ p _ _)).trans
    (.recomputeExposure _))

theorem KeepsSound.expireLease (s : State) (p : Port) : KeepsSound s (s.expireLease p) := by
  unfold State.expireLease
  split
  · exact .enterClosing s p
  · exact .lapse s p

/-! ## The engine and the frame -/

theorem KeepsSound.arbitrate (s : State) : KeepsSound s s.arbitrate := by
  rw [s.arbitrate_frame]
  exact .of_rest

theorem KeepsSound.endCommand (s : State) (p : Port) (c : QCmd) (st : Status) (res : ResultPart) (cells : Nat) :
    KeepsSound s (s.endCommand p c st res cells) :=
  (KeepsSound.of_port s p _).trans (.of_records (s.endCommand_records p c st res cells))

theorem KeepsSound.completeMark (s : State) (p : Port) : KeepsSound s (s.completeMark p) := by
  refine .ite _ fun _ => ?_
  split
  · exact .refl s
  · exact .endCommand s p _ _ _ _

theorem KeepsSound.frameStart (s : State) : KeepsSound s s.frameStart := by
  have hlatched : KeepsSound s s.frameLatched := .of_rest
  rw [s.frameStart_eq]
  exact (hlatched.trans (.foldl _ _ .completeMark _)).trans (.arbitrate _)

/-- A slice ends in a state that keeps what its work has kept: the command ends or goes on, and a CLOSING port has its request end
(R61). -/
theorem KeepsSound.finishSlice {e : SliceEnd} (h : KeepsSound s e.state) (p : Port) (c : QCmd) :
    KeepsSound s (Machine.finishSlice p c e) := by
  have hgiven (v : State) : KeepsSound v (e.given p c v) := by
    unfold SliceEnd.given
    split
    · exact (KeepsSound.choose (State.Quietens.setPort v p _ rfl)).trans (.teardownNotice _ p)
    · split
      · exact .endCommand v p c _ _ _
      · split
        · exact .endCommand v p c _ _ _
        · exact .of_port v p _
        · exact .of_port v p _
  have hfree : KeepsSound e.state { e.state with slice := none } := .of_rest
  rw [finishSlice_eq]
  exact (((h.trans hfree).trans (hgiven _)).trans (.arbitrate _)).trans (.takeWaitingRemoval _)

theorem KeepsSound.runSlice {k : CommandKind} {work : QCmd → State → SliceEnd} (h : ∀ c, KeepsSound s (work c s).state) :
    KeepsSound s (s.runSlice p k work) := by
  rcases s.runSlice_cases p k work with hr | ⟨c, -, -, hr⟩ <;> rw [hr]
  · exact .refl s
  · refine KeepsSound.finishSlice ?_ p c
    split
    · exact .refl s
    · exact h c

theorem KeepsSound.oneSlice {e : Effect} (h : ∀ s' res, e = .ok (s', res) → KeepsSound s s') :
    KeepsSound s (Machine.oneSlice s e).state := by
  cases e with
  | error st => exact .refl s
  | ok r => exact h _ _ rfl

/-- The slice of a command that names its port's own window. -/
theorem KeepsSound.ownWindow {c : QCmd} {i n : Nat} {effect : Window → Effect}
    (h : ∀ w s' res, effect w = .ok (s', res) → KeepsSound s s') :
    KeepsSound s (Machine.oneSlice s (ownWindowAt s p c i n effect)).state :=
  .oneSlice fun s' res he => by
    obtain ⟨w, -, -, he⟩ := ownWindowAt_ok he
    exact h w s' res he

theorem KeepsSound.ownDrawing {c : QCmd} {work : Progress → Window → SliceEnd} (h : ∀ pr w, KeepsSound s (work pr w).state) :
    KeepsSound s (Machine.ownDrawing s p c work).state := by
  unfold Machine.ownDrawing
  simp only
  split
  · exact .refl s
  · exact h _ _

/-! ## The commands in slices -/

theorem KeepsSound.createWindow {c : QCmd} {res : ResultPart} (h : s.createWindow p c = .ok (t, res)) : KeepsSound s t := by
  rcases s.createWindow_cases p c with ⟨st, hr⟩ | ⟨o, slot, -, -, hr⟩ <;> rw [hr] at h <;> cases h
  have hmade : KeepsSound s (s.created p slot o) := KeepsSound.trans .of_rest (.of_port _ p _)
  exact hmade.trans (.recomputeExposure _)

theorem KeepsSound.placeWindow {c : QCmd} {w : Window} {res : ResultPart} (h : s.placeWindow c w = .ok (t, res)) :
    KeepsSound s t := by
  unfold State.placeWindow at h
  simp only at h
  split at h <;> cases h
  exact .trans .of_rest (.recomputeExposure _)

theorem KeepsSound.setBand {c : QCmd} {w : Window} {res : ResultPart} (h : s.setBand p c w = .ok (t, res)) : KeepsSound s t := by
  unfold State.setBand at h
  split at h
  · cases h
  · split at h <;> cases h
    exact .trans .of_rest (.recomputeExposure _)

theorem KeepsSound.setModes (s : State) (w : Window) (o : ModeOperands) : KeepsSound s (s.setModes w o) := by
  have hset : KeepsSound s (s.updateWindow w.handle (fun w => w.withModes o)) := .of_rest
  unfold State.setModes
  simp only
  split <;> split
  · exact hset.trans (.recomputeExposure _)
  · exact (hset.trans (.withdrawFocus _ _ _ _)).trans (.recomputeExposure _)
  · exact hset
  · exact hset.trans (.withdrawFocus _ _ _ _)

theorem KeepsSound.grantRead {c : QCmd} {w : Window} {res : ResultPart} (h : s.grantRead c w = .ok (t, res)) : KeepsSound s t := by
  unfold State.grantRead at h
  split at h
  · cases h
  · split at h
    · cases h
    · split at h
      · cases h
      · split at h <;> cases h <;> exact .of_rest

theorem KeepsSound.requestFocus {w : Window} {res : ResultPart} (h : s.requestFocus w = .ok (t, res)) : KeepsSound s t := by
  unfold State.requestFocus at h
  split at h
  · cases h
    exact .refl s
  · split at h <;> cases h
    exact .moveFocus s w

theorem KeepsSound.writeText (s : State) (pr : Progress) (w : Window) (items : List TextItem) :
    KeepsSound s (s.writeText pr w items).state := by
  unfold State.writeText
  simp only
  split <;> exact .of_rest

theorem KeepsSound.rectSlice (s : State) (pr : Progress) (backward : Bool) (area : Nat) (write : Memory → Nat → Memory) :
    KeepsSound s (s.rectSlice pr backward area write).state := by
  unfold State.rectSlice
  simp only
  split <;> exact .of_rest

theorem KeepsSound.copyWork (s : State) (p : Port) (c : QCmd) : KeepsSound s (Machine.copyWork p c s).state := by
  unfold Machine.copyWork
  split
  · exact .refl s
  · split
    · exact .refl s
    · unfold State.copySlice
      exact .rectSlice s _ _ _ _

/-! ## The host links -/

theorem KeepsSound.placeReply (s : State) (p : Port) (r : Reply) : KeepsSound s (s.placeReply p r) := .of_port s p _

theorem KeepsSound.nak (s : State) (p : Port) (tag : Byte) (reason : NakReason) : KeepsSound s (s.nak p tag reason) :=
  .placeReply s p _

theorem KeepsSound.ack (s : State) (p : Port) (tag : Byte) (body : ReplyBody) : KeepsSound s (s.ack p tag body) := .placeReply s p _

theorem KeepsSound.answer (p : Port) (tag : Byte) (h : KeepsSound s u) : KeepsSound s (s.answer p tag u) := by
  unfold State.answer
  split
  · exact .refl s
  · exact .nak s p tag _
  · exact h

theorem KeepsSound.takeAttach (s : State) (p : Port) (tag : Byte) : KeepsSound s (s.takeAttach p tag) := by
  unfold State.takeAttach
  split
  case h_2 => exact (KeepsSound.of_port s p _).trans (.ack _ p tag _)
  all_goals exact .nak s p tag _

theorem KeepsSound.takeRenew (s : State) (p : Port) (tag : Byte) : KeepsSound s (s.takeRenew p tag) := by
  have hrenew (n : Nat) : KeepsSound s (s.setPort p ((s.port p).renewLease n)) := .of_port s p _
  unfold State.takeRenew
  simp only
  split
  case h_3 => exact (hrenew _).trans (.ack _ p tag _)
  case h_4 => exact (((hrenew _).trans (.recomputeExposure _)).trans (.ack _ p tag _)).trans (.arbitrate _)
  all_goals exact .nak s p tag _

theorem KeepsSound.takeDetach (s : State) (p : Port) (tag : Byte) : KeepsSound s (s.takeDetach p tag) := by
  have hclose (body : ReplyBody) : KeepsSound s ((s.enterClosing p).ack p tag body) := (KeepsSound.enterClosing s p).trans (.ack _ p tag _)
  unfold State.takeDetach
  simp only
  split
  case h_3 => exact hclose _
  case h_4 => exact hclose _
  case h_5 => exact .ack s p tag _
  all_goals exact .nak s p tag _

theorem KeepsSound.takeReadEvents (s : State) (p : Port) (tag : Byte) : KeepsSound s (s.takeReadEvents p tag) := by
  unfold State.takeReadEvents
  split
  case h_3 => exact .of_port s p _
  case h_4 => exact .of_port s p _
  all_goals exact .nak s p tag _

theorem KeepsSound.abortQueue (s : State) (p : Port) : KeepsSound s (s.abortQueue p) := by
  have hend : KeepsSound s (match (s.port p).queue with
      | [] => s
      | c :: _ => (s.setPort p (s.port p).onlyHead).endCommand p c .aborted .none (s.port p).progress.cellsDone) := by
    split
    · exact .refl s
    · exact (KeepsSound.of_port s p _).trans (.endCommand _ p _ _ _ _)
  unfold State.abortQueue
  split
  · exact .refl s
  · exact .of_port s p _
  · exact .of_port s p _
  · exact hend
  · exact hend

theorem KeepsSound.takeAbort (s : State) (p : Port) (tag : Byte) : KeepsSound s (s.takeAbort p tag) := by
  have htaken : KeepsSound s (s.abortTaken p tag) := ((KeepsSound.of_port s p _).trans (.abortQueue _ p)).trans (.ack _ p tag _)
  unfold State.takeAbort
  split
  case h_3 => exact htaken
  case h_4 => exact htaken
  all_goals exact .nak s p tag _

theorem KeepsSound.takeCommand (s : State) (p : Port) (kind : CommandKind) (flags tag : Byte) (payload : List Byte) :
    KeepsSound s (s.takeCommand p kind flags tag payload) := by
  have henqueue : KeepsSound s (s.enqueue p kind flags tag payload) := by
    unfold State.enqueue
    simp only
    split
    · exact .placeReply s p _
    · split
      · exact .nak s p tag _
      · exact ((KeepsSound.of_port s p _).trans (.ack _ p tag _)).trans (.arbitrate _)
  unfold State.takeCommand
  split
  case h_3 => exact henqueue
  all_goals exact .nak s p tag _

theorem KeepsSound.takeFrame (s : State) (p : Port) (kind : FrameKind) (flags tag : Byte) (payload : List Byte) :
    KeepsSound s (s.takeFrame p kind flags tag payload) := by
  refine .answer p tag ?_
  cases kind with
  | attach => exact .takeAttach s p tag
  | detach => exact .takeDetach s p tag
  | renew => exact .takeRenew s p tag
  | readEvents => exact .takeReadEvents s p tag
  | status => exact .ack s p tag _
  | abort => exact .takeAbort s p tag
  | queued k => exact .takeCommand s p k flags tag payload

theorem KeepsSound.failSend (s : State) (p : Port) (reason : NakReason) (tag : Byte) : KeepsSound s (s.failSend p reason tag) := by
  refine KeepsSound.trans (t := s.setPort p ((s.port p).countError reason)) (.of_port s p _ ?_) (.nak _ p tag reason)
  cases reason <;> rfl

theorem KeepsSound.send (s : State) (p : Port) (bytes : List Byte) : KeepsSound s (s.send p bytes) := by
  unfold State.send
  split
  · exact .refl s
  · split
    · exact .failSend s p _ _
    · exact .takeFrame s p _ _ _ _

theorem PortRec.fetch_tone (q : PortRec) (part : FetchPart) : (q.fetch part).tone = q.tone := by
  have hend (q : PortRec) (n : Nat) : (q.endFetch n).tone = q.tone := by
    unfold PortRec.endFetch
    split
    · rfl
    · simp only
      split <;> rfl
  cases part with
  | whole n => exact hend _ n
  | lead => rfl
  | rise n => exact hend _ n

theorem KeepsSound.fetch (s : State) (p : Port) (part : FetchPart) : KeepsSound s (s.fetch p part) := by
  unfold State.fetch
  split
  · exact .refl s
  · exact .of_port s p _ ((s.port p).fetch_tone part)

theorem KeepsSound.transaction (s : State) (p : Port) (bytes : List Byte) : KeepsSound s (s.transaction p bytes) := by
  rcases s.transaction_cases p bytes with ⟨rest, -, h⟩ | ⟨rest, -, h⟩ | ⟨-, -, h⟩ <;> rw [h]
  · exact .send s p rest
  · exact .fetch s p _
  · split
    · exact .refl s
    · exact .of_port s p _

/-! ## Touch and keys -/

theorem KeepsSound.routePress (s : State) (q : Pixel) : KeepsSound s (s.routePress q) := by
  unfold State.routePress
  split
  · exact .of_rest
  · exact (KeepsSound.trans .of_rest (.post _ _ _ _)).trans (.ite _ fun _ => .moveFocus _ _)

theorem KeepsSound.contactUp (s : State) (q : Pixel) : KeepsSound s (s.contactUp q) := by
  unfold State.contactUp
  split
  · exact .of_rest
  · exact .trans .of_rest (.routePress _ q)

theorem KeepsSound.contactDown (s : State) (q : Pixel) : KeepsSound s (s.contactDown q) := by
  have hmove (u : State) : KeepsSound u (u.routeMove q) := by
    unfold State.routeMove
    split
    · exact .post u _ _ _
    · exact .refl u
  unfold State.contactDown
  split
  · exact .trans .of_rest (hmove _)
  · exact .of_rest

theorem KeepsSound.noContactDown (s : State) : KeepsSound s s.noContactDown := by
  have hrelease (u : State) (q : Pixel) : KeepsSound u (u.routeRelease q) := by
    unfold State.routeRelease
    split
    · exact .trans .of_rest (.post _ _ _ _)
    · exact .of_rest
  unfold State.noContactDown
  split
  · exact .of_rest
  · split
    · exact .of_rest
    · exact .trans .of_rest (hrelease _ _)

theorem KeepsSound.sampleTouch (s : State) (reading : TouchReading) : KeepsSound s (s.sampleTouch reading) := by
  unfold State.sampleTouch
  split
  · exact .contactUp s _
  · exact .contactDown s _
  · exact .of_rest
  · exact .noContactDown s

theorem KeepsSound.postKey (s : State) (c : KeyCapture) (body : EventBody) : KeepsSound s (s.postKey c body) :=
  .foldl _ _ (fun s p => .post s p body c.handle) s

theorem KeepsSound.postCapture (s : State) (k : KeyId) (body : EventBody) : KeepsSound s (s.postCapture k body) := by
  unfold State.postCapture
  split
  · exact .refl s
  · exact .postKey s _ body

/-- A SILENCE key's down report ends requests, and any other's ends none (R163). -/
theorem KeepsSound.acceptDown (s : State) (k : KeyId) : KeepsSound s (s.acceptDown k) := by
  by_cases h : s.prof.routing.get k = .silence
  · rw [State.acceptDown_silence h]
    exact .trans .of_rest (.silence _)
  · rw [State.acceptDown_told h]
    exact .trans .of_rest (.postKey _ _ _)

theorem KeepsSound.acceptUp (s : State) (k : KeyId) : KeepsSound s (s.acceptUp k) := (KeepsSound.postCapture s k _).trans .of_rest

theorem KeepsSound.repeatKey (s : State) (k : KeyId) : KeepsSound s (s.repeatKey k) := .trans .of_rest (.postCapture _ k _)

theorem KeepsSound.readKey (s : State) (k : KeyId) (pressed : Bool) : KeepsSound s (s.readKey k pressed) := by
  unfold State.readKey
  simp only
  split
  · exact .of_rest
  · split
    · exact .of_rest
    · split
      · exact .acceptDown s k
      · exact .acceptUp s k

/-! ## Start-up and the passing of time -/

theorem State.SoundAgrees.of_reset (d : DeviceState) (is : List Instr) :
    State.SoundAgrees { State.reset with device := d, pending := is } := by
  have hnone (p : Port) : (({ State.reset with device := d, pending := is } : State).port p).tone = none := by
    rw [State.port_reset]
    rfl
  have hdistinct : State.StartsDistinct { State.reset with device := d, pending := is } :=
    fun p q t u h => nomatch (hnone p).symm.trans h
  exact ⟨((State.soundingChoice_eq_none_iff hdistinct).2 hnone).symm, fun p t h => (nomatch (hnone p).symm.trans h), hdistinct⟩

theorem KeepsSound.becomeReady (s : State) (image : Option (List Byte)) (first : TouchReading) :
    KeepsSound s (s.becomeReady image first) := by
  have hprofile : KeepsSound s (s.takeProfile (loadedProfile image)) := .of_tones fun p => by rw [State.port_takeProfile]; rfl
  exact (hprofile.trans (.frameStart _)).trans (.ite _ fun _ => .sampleTouch _ first)

theorem KeepsSound.idle (s : State) : KeepsSound s s.idle := by
  unfold State.idle
  split
  · exact .refl s
  · split
    · exact .of_rest
    · exact (KeepsSound.advanceTime s).trans .of_rest

/-! ## Every step -/

/-- Every command and event has a next state, in which the sounding request is still the choice. -/
theorem exec_keepsSound (i : Instr) (s : State) : ∃ t, exec i s = .next t ∧ KeepsSound s t := by
  cases i with
  | deviceReset => exact ⟨_, rfl, fun _ => .of_reset .held _⟩
  | deviceResetEnd => exact ⟨_, rfl, .ite _ fun _ _ => .of_reset .starting _⟩
  | profileLoadEnd image first => exact ⟨_, rfl, .ite _ fun _ => .becomeReady s image first⟩
  | nakFraming p bytes => exact ⟨_, rfl, .send s p bytes⟩
  | fetch p part => exact ⟨_, rfl, .fetch s p part⟩
  | attach p tag => exact ⟨_, rfl, .answer p tag (.takeAttach s p tag)⟩
  | renew p tag => exact ⟨_, rfl, .answer p tag (.takeRenew s p tag)⟩
  | detach p tag => exact ⟨_, rfl, .answer p tag (.takeDetach s p tag)⟩
  | readEvents p tag => exact ⟨_, rfl, .answer p tag (.takeReadEvents s p tag)⟩
  | status p tag => exact ⟨_, rfl, .answer p tag (.ack s p tag _)⟩
  | abort p tag => exact ⟨_, rfl, .answer p tag (.takeAbort s p tag)⟩
  | commandAdmission p kind flags tag payload =>
    refine ⟨_, rfl, ?_⟩
    split
    · exact .refl s
    · split
      · exact .nak s p tag _
      · exact .answer p tag (.takeCommand s p kind flags tag payload)
  | createWindow p => exact ⟨_, rfl, .runSlice fun c => .oneSlice fun s' res h => .createWindow h⟩
  | destroyWindow p =>
    refine ⟨_, rfl, .runSlice fun c => .ownWindow fun w s' res h => ?_⟩
    cases h
    exact .removeWindow s w
  | placeWindow p => exact ⟨_, rfl, .runSlice fun c => .ownWindow fun w s' res h => .placeWindow h⟩
  | hideWindow p =>
    refine ⟨_, rfl, .runSlice fun c => .ownWindow fun w s' res h => ?_⟩
    cases h
    exact (KeepsSound.trans .of_rest (.withdrawFocus _ _ _ _)).trans (.recomputeExposure _)
  | showWindow p | raiseWindow p | lowerWindow p =>
    refine ⟨_, rfl, .runSlice fun c => .ownWindow fun w s' res h => ?_⟩
    cases h
    exact .trans .of_rest (.recomputeExposure _)
  | setBand p => exact ⟨_, rfl, .runSlice fun c => .ownWindow fun w s' res h => .setBand h⟩
  | setWindowModes p =>
    refine ⟨_, rfl, .runSlice fun c => .ownWindow fun w s' res h => ?_⟩
    split at h <;> cases h
    exact .setModes s w _
  | grantRead p => exact ⟨_, rfl, .runSlice fun c => .ownWindow fun w s' res h => .grantRead h⟩
  | revokeRead p | setPen p | setCursor p =>
    refine ⟨_, rfl, .runSlice fun c => .ownWindow fun w s' res h => ?_⟩
    split at h <;> cases h
    exact .of_rest
  | queryWindow p =>
    refine ⟨_, rfl, .runSlice fun c => .oneSlice fun s' res h => ?_⟩
    split at h
    · cases h
    · split at h <;> cases h
      exact .refl s
  | writeText p =>
    refine ⟨_, rfl, .runSlice fun c => .ownDrawing fun pr w => ?_⟩
    split
    · exact .refl s
    · exact .writeText s pr w _
  | putCells p | fillRect p | shiftRect p =>
    refine ⟨_, rfl, .runSlice fun c => .ownDrawing fun pr w => ?_⟩
    split
    · exact .refl s
    · split
      · exact .rectSlice s pr _ _ _
      · exact .refl s
  | copyRect p => exact ⟨_, rfl, KeepsSound.runSlice (work := copyWork p) fun c => .copyWork s p c⟩
  | readCells p =>
    refine ⟨_, rfl, .runSlice fun c => ?_⟩
    split
    · exact .refl s
    · split
      · exact .refl s
      · split <;> exact .refl s
  | requestFocus p => exact ⟨_, rfl, .runSlice fun c => .ownWindow fun w s' res h => .requestFocus h⟩
  | releaseFocus p =>
    refine ⟨_, rfl, .runSlice fun c => .oneSlice fun s' res h => ?_⟩
    split at h <;> cases h
    exact .releaseFocus s p
  | toneStart p =>
    refine ⟨_, rfl, .runSlice fun c => .oneSlice fun s' res h => ?_⟩
    split at h
    · cases h
    · split at h <;> cases h
      exact .startTone s p _
  | toneStop p =>
    refine ⟨_, rfl, .runSlice fun c => .oneSlice fun s' res h => ?_⟩
    split at h <;> cases h
    exact .endTone s p _
  | loadGlyphs p | setBrightness p =>
    refine ⟨_, rfl, .runSlice fun c => .oneSlice fun s' res h => ?_⟩
    split at h <;> cases h
    exact .of_port s p _
  | frameMark p =>
    refine ⟨_, rfl, .runSlice fun c => ?_⟩
    split <;> exact .refl s
  | frameStart => exact ⟨_, rfl, .ite _ fun _ => .frameStart s⟩
  | touchSample reading => exact ⟨_, rfl, .ite _ fun _ => .sampleTouch s reading⟩
  | pressReport x y => exact ⟨_, rfl, .ite _ fun _ => .contactUp s _⟩
  | releaseReport => exact ⟨_, rfl, .ite _ fun _ => .noContactDown s⟩
  | keyReading k pressed => exact ⟨_, rfl, .ite _ fun _ => .readKey s k pressed⟩
  | downReport k => exact ⟨_, rfl, .ite _ fun _ => .acceptDown s k⟩
  | repeatReport k => exact ⟨_, rfl, .ite _ fun _ => .repeatKey s k⟩
  | upReport k => exact ⟨_, rfl, .ite _ fun _ => .acceptUp s k⟩
  | leaseWarning p => exact ⟨_, rfl, .ite _ fun _ => (KeepsSound.of_port s p _).trans (.post _ p _ _)⟩
  | leaseExpiry p => exact ⟨_, rfl, .ite _ fun _ => .expireLease s p⟩
  | graceExpiry p => exact ⟨_, rfl, .ite _ fun _ => .enterClosing s p⟩
  | teardownRemoval p => exact ⟨_, rfl, .ite _ fun _ => .comeRemoval s p⟩
  | toneExpiry p => exact ⟨_, rfl, .ite _ fun _ => .endTone s p _⟩
  | tonePhaseChange => exact ⟨_, rfl, .of_rest⟩
  | scanRowFetch =>
    refine ⟨_, rfl, ?_⟩
    split
    · exact .refl s
    · exact .ite _ fun _ => .of_rest
  | ignoredTransaction p bytes => exact ⟨_, rfl, .transaction s p bytes⟩

end Sounding

/-- Settles O60: requests end and start only where the choice is made again, and every other part of a step leaves them alone. -/
theorem stepKeepsTheSoundAgreeing : Obligations.StepKeepsTheSoundAgreeing := by
  intro s t hs h
  unfold step at h
  split at h
  · cases h
    exact KeepsSound.idle s hs
  · rename_i i rest _
    obtain ⟨u, hu, hkeeps⟩ := exec_keepsSound i { s with pending := rest }
    have hrest : KeepsSound s { s with pending := rest } := .of_rest
    rw [hu] at h
    cases h
    exact hkeeps (hrest hs)

end Sys2Proof.Machine
end

section
namespace Sys2Proof.Machine

-- One theorem is checked at a time, for the memory limit.
set_option Elab.async false

/-! The bytes of a SEND: the CRC-8, the kind codes, the judgement of the link checks one clause at a time, and a frame that a host built
read back. -/

/-! ## The check byte (R167) -/

theorem crc8_concat (bytes : List Byte) (b : Byte) : crc8 (bytes ++ [b]) = Nat.repeat crc8Bit 8 (crc8 bytes ^^^ b) := by
  simp [crc8, List.foldl_append]

theorem crc8Bit_eq (c : Byte) : crc8Bit c = if c.getLsbD 7 = true then (c <<< 1) ^^^ 0x07#8 else c <<< 1 := by
  rw [crc8Bit, BitVec.msb_eq_getLsbD_last]

/-! ## Kinds and numbers (Tables 11-1 and 11-3) -/

theorem byte_toNat (n : Nat) : (byte n).toNat = n % 256 := BitVec.toNat_ofNat n 8

theorem frameKindOf_kindCode (k : CommandKind) : frameKindOf (byte (kindCode k)).toNat = some (.queued k) := by
  cases k <;> rfl

/-- The kind codes of the link requests are those of Table 11-3. -/
theorem frameKindOf_request {code : Byte} {kind : FrameKind}
    (h : (code, kind) ∈ [(1#8, FrameKind.attach), (2#8, .detach), (3#8, .renew), (4#8, .readEvents), (5#8, .status), (6#8, .abort)]) :
    frameKindOf code.toNat = some kind := by
  simp only [List.mem_cons, Prod.mk.injEq, List.not_mem_nil, or_false] at h
  rcases h with ⟨rfl, rfl⟩ | ⟨rfl, rfl⟩ | ⟨rfl, rfl⟩ | ⟨rfl, rfl⟩ | ⟨rfl, rfl⟩ | ⟨rfl, rfl⟩ <;> rfl

/-! ## The link checks in their order (R168) -/

section Judging

variable {bytes : List Byte}

theorem judgeSend_short (h : bytes.length < 5) : judgeSend bytes = .nak .framing 0 := if_pos h

theorem judgeSend_long (h5 : 5 ≤ bytes.length) (hlen : 512 < wordAt bytes 3) :
    judgeSend bytes = .nak .length (bytes.getD 2 0) :=
  (if_neg (Nat.not_lt.2 h5)).trans (if_pos hlen)

theorem judgeSend_cut (h5 : 5 ≤ bytes.length) (hlen : wordAt bytes 3 ≤ 512) (h : bytes.length < 6 + wordAt bytes 3) :
    judgeSend bytes = .nak .framing (bytes.getD 2 0) :=
  (if_neg (Nat.not_lt.2 h5)).trans ((if_neg (Nat.not_lt.2 hlen)).trans (if_pos (by omega)))

/-- A SEND whose bytes are all there is judged by its check byte, and then by its kind byte. -/
theorem judgeSend_whole (hlen : wordAt bytes 3 ≤ 512) (h : 6 + wordAt bytes 3 ≤ bytes.length) :
    judgeSend bytes = if bytes.getD (5 + wordAt bytes 3) 0 ≠ crc8 (bytes.take (5 + wordAt bytes 3)) then .nak .check (bytes.getD 2 0)
      else (frameKindOf (byteAt bytes 0)).elim (.nak .kind (bytes.getD 2 0))
        fun k => .frame k (bytes.getD 1 0) (bytes.getD 2 0) ((bytes.drop 5).take (wordAt bytes 3)) := by
  have h5 : ¬ bytes.length < 5 := by omega
  have hcut : ¬ bytes.length < 5 + wordAt bytes 3 + 1 := by omega
  have hmax : ¬ wordAt bytes 3 > Config.maxPayload := Nat.not_lt.2 hlen
  rw [judgeSend, if_neg h5, if_neg hmax, if_neg hcut]
  cases frameKindOf (byteAt bytes 0) <;> rfl

theorem judgeSend_badCheck (hlen : wordAt bytes 3 ≤ 512) (h : 6 + wordAt bytes 3 ≤ bytes.length)
    (hcrc : bytes.getD (5 + wordAt bytes 3) 0 ≠ crc8 (bytes.take (5 + wordAt bytes 3))) :
    judgeSend bytes = .nak .check (bytes.getD 2 0) :=
  (judgeSend_whole hlen h).trans (if_pos hcrc)

theorem judgeSend_noKind (hlen : wordAt bytes 3 ≤ 512) (h : 6 + wordAt bytes 3 ≤ bytes.length)
    (hcrc : bytes.getD (5 + wordAt bytes 3) 0 = crc8 (bytes.take (5 + wordAt bytes 3)))
    (hkind : frameKindOf (byteAt bytes 0) = none) : judgeSend bytes = .nak .kind (bytes.getD 2 0) := by
  rw [judgeSend_whole hlen h, if_neg (not_not.2 hcrc), hkind, Option.elim_none]

theorem judgeSend_passes {kind : FrameKind} (hlen : wordAt bytes 3 ≤ 512) (h : 6 + wordAt bytes 3 ≤ bytes.length)
    (hcrc : bytes.getD (5 + wordAt bytes 3) 0 = crc8 (bytes.take (5 + wordAt bytes 3)))
    (hkind : frameKindOf (byteAt bytes 0) = some kind) :
    judgeSend bytes = .frame kind (bytes.getD 1 0) (bytes.getD 2 0) ((bytes.drop 5).take (wordAt bytes 3)) := by
  rw [judgeSend_whole hlen h, if_neg (not_not.2 hcrc), hkind, Option.elim_some]

/-- A frame that passed the checks has a payload that the length check allows: every clause before the last answers a NAK. -/
theorem length_le_of_judgeSend {kind : FrameKind} {flags tag : Byte} {payload : List Byte}
    (h : judgeSend bytes = .frame kind flags tag payload) : payload.length ≤ Config.maxPayload := by
  rcases Nat.lt_or_ge bytes.length 5 with h5 | h5
  · cases (judgeSend_short h5).symm.trans h
  rcases Nat.lt_or_ge 512 (wordAt bytes 3) with hlen | hlen
  · cases (judgeSend_long h5 hlen).symm.trans h
  rcases Nat.lt_or_ge bytes.length (6 + wordAt bytes 3) with hcut | hcut
  · cases (judgeSend_cut h5 hlen hcut).symm.trans h
  by_cases hcrc : bytes.getD (5 + wordAt bytes 3) 0 = crc8 (bytes.take (5 + wordAt bytes 3))
  · cases hkind : frameKindOf (byteAt bytes 0) with
    | none => cases (judgeSend_noKind hlen hcut hcrc hkind).symm.trans h
    | some k =>
      cases (judgeSend_passes hlen hcut hcrc hkind).symm.trans h
      exact (List.length_take_le _ _).trans hlen
  · cases (judgeSend_badCheck hlen hcut hcrc).symm.trans h

end Judging

/-! ## A frame that a host built (R167, R168) -/

section Building

variable {code flags tag : Byte} {payload : List Byte}

theorem frameBytes_length : (frameBytes code flags tag payload).length = 5 + payload.length := by
  simp [frameBytes, be16]
  omega

/-- The length field reads back the length of a payload that it can hold. -/
theorem wordAt_frameBytes (h : payload.length ≤ 512) (rest : List Byte) :
    wordAt (frameBytes code flags tag payload ++ rest) 3 = payload.length := by
  have hhigh : byteAt (frameBytes code flags tag payload ++ rest) 3 = payload.length / 256 % 256 := byte_toNat _
  have hlow : byteAt (frameBytes code flags tag payload ++ rest) 4 = payload.length % 256 := byte_toNat _
  rw [wordAt, hhigh, hlow]
  omega

/-- A frame closed by its check byte reads back as the kind that its code names, whatever follows. -/
theorem judgeSend_frameBytes {kind : FrameKind} (h : payload.length ≤ 512) (hkind : frameKindOf code.toNat = some kind)
    (extra : List Byte) :
    judgeSend (frameBytes code flags tag payload ++ crc8 (frameBytes code flags tag payload) :: extra)
      = .frame kind flags tag payload := by
  have hlength : (frameBytes code flags tag payload).length = 5 + payload.length := frameBytes_length
  have hlen := wordAt_frameBytes (code := code) (flags := flags) (tag := tag) h
    (crc8 (frameBytes code flags tag payload) :: extra)
  rw [judgeSend_passes (hlen.trans_le h) ?whole ?check hkind, hlen]
  case whole => rw [hlen, List.length_append, List.length_cons]; omega
  case check => rw [hlen, ← hlength, List.take_left, List.getD_append_right _ _ _ _ le_rfl, Nat.sub_self]; rfl
  have hpayload : (payload ++ crc8 (frameBytes code flags tag payload) :: extra).take payload.length = payload := List.take_left
  exact congrArg (Verdict.frame kind flags tag) hpayload

end Building

/-- Settles O8: the CRC-8 byte by byte, and a frame built with a kind's code by the clause of the checks that all frames built reach. -/
theorem framesReadBackAsBuilt : Obligations.FramesReadBackAsBuilt := by
  refine ⟨⟨rfl, fun bytes b => ?_, by decide +kernel⟩, fun code kind flags tag payload extra h hkind => ?_, rfl, rfl, rfl⟩
  · rw [crc8_concat, funext crc8Bit_eq]
  · have hcode : frameKindOf code.toNat = some kind := by
      rcases hkind with hrequest | ⟨k, rfl, rfl⟩
      · exact frameKindOf_request hrequest
      · exact frameKindOf_kindCode k
    intro frame
    rw [List.append_assoc]
    exact judgeSend_frameBytes h hcode extra

end Sys2Proof.Machine
end

section
namespace Sys2Proof.Machine

-- One theorem is checked at a time, for the memory limit.
set_option Elab.async false

/-! What a transaction does to the part: the admission of a queued command, the STATUS reply, a SEND by the clause of the link checks
that it meets, and data out. -/

/-! ## STATUS (R103, R176) -/

theorem PortRec.remaining_eq (q : PortRec) :
    q.remaining = if q.state = .live then q.lease else if q.state = .lapsed then q.grace else 0 := by
  unfold PortRec.remaining
  cases q.state <;> rfl

/-- Byte 14 of the STATUS body gives its bit 0, whatever its spare bits are (log 7). -/
theorem getLsbD_zero_append_ofBool (spare : BitVec 7) (b : Bool) : (spare ++ BitVec.ofBool b).getLsbD 0 = b := by
  rw [BitVec.getLsbD_append]
  simp

/-- Settles O17: a READY device takes STATUS in every port state, and Table 11-6 is the definition of its bytes. -/
theorem statusReportsThePort : Obligations.StatusReportsThePort := by
  refine ⟨fun s p tag hd => congrArg Host.Outcome.next ?_, fun st epoch rem n b head recs lost wins strips errs defaulted frame time =>
    ⟨Config.statusSpareBits ++ BitVec.ofBool defaulted, getLsbD_zero_append_ofBool _ _, rfl⟩, rfl, rfl⟩
  rw [State.answer_ready hd, State.takeStatus, State.statusBody, PortRec.remaining_eq]
  rfl

/-! ## Admission (R44, R172, R173) -/

theorem State.answer_held {s : State} (h : s.device = .held) (p : Port) (tag : Byte) (u : State) : s.answer p tag u = s := by
  rw [State.answer, h]

section Admission

variable {s : State} {p : Port} {k : CommandKind} {flags tag : Byte} {payload : List Byte}

/-- A queued command whose payload a frame can carry is answered by device state and then by port state (R168, R172). -/
theorem exec_commandAdmission (h : payload.length ≤ Config.maxPayload) :
    exec (.commandAdmission p k flags tag payload) s = .next (s.answer p tag (s.takeCommand p k flags tag payload)) := by
  refine congrArg Host.Outcome.next ?_
  by_cases hheld : s.device = .held
  · exact (if_pos hheld).trans (State.answer_held hheld p tag _).symm
  · rw [if_neg hheld, if_neg (Nat.not_lt.2 h)]

theorem exec_commandAdmission_live (hd : s.device = .ready) (hlive : (s.port p).state = .live)
    (h : payload.length ≤ Config.maxPayload) :
    exec (.commandAdmission p k flags tag payload) s = .next (s.enqueue p k flags tag payload) := by
  rw [exec_commandAdmission h, State.answer_ready hd, State.takeCommand, hlive]

theorem State.enqueue_duplicate (h : (s.port p).duplicate = some (duplicateKey k flags tag payload)) :
    s.enqueue p k flags tag payload = s.placeReply p ⟨.ackDuplicate, tag, admissionBody (s.port p).queue⟩ :=
  if_pos h

theorem State.enqueue_full (hnew : (s.port p).duplicate ≠ some (duplicateKey k flags tag payload))
    (hfull : 8 ≤ (s.port p).queue.length ∨ 1024 < payloadBytes (s.port p).queue + payload.length) :
    s.enqueue p k flags tag payload = s.nak p tag .full :=
  (if_neg hnew).trans (if_pos hfull)

theorem State.enqueue_joins (hnew : (s.port p).duplicate ≠ some (duplicateKey k flags tag payload))
    (hroom : (s.port p).queue.length < 8) (hfits : payloadBytes (s.port p).queue + payload.length ≤ 1024) :
    s.enqueue p k flags tag payload = ((s.setPort p ((s.port p).enqueue (queuedCommand k flags tag payload)
      (duplicateKey k flags tag payload))).ack p tag (admissionBody ((s.port p).queue ++ [queuedCommand k flags tag payload]))).arbitrate :=
  (if_neg hnew).trans (if_neg (not_or.2 ⟨Nat.not_le.2 hroom, Nat.not_lt.2 hfits⟩))

/-- The queue that an admission ACK reports counts the command that has joined. -/
theorem admissionBody_concat (q : List QCmd) (c : QCmd) :
    admissionBody (q ++ [c]) = .admission (q.length + 1) (payloadBytes q + c.payload.length) := by
  simp [admissionBody, payloadBytes]

end Admission

/-- Settles O18: the duplicate memory is asked first, then the room in the queue. -/
theorem admissionQueuesWhatFits : Obligations.AdmissionQueuesWhatFits := by
  intro s p k flags tag payload hd hlive hpayload q key held c
  have hexec : exec (.commandAdmission p k flags tag payload) s = .next (s.enqueue p k flags tag payload) :=
    exec_commandAdmission_live hd hlive hpayload
  rw [hexec]
  refine ⟨fun hdup => congrArg Host.Outcome.next (State.enqueue_duplicate hdup),
    fun hnew hfull => congrArg Host.Outcome.next (State.enqueue_full hnew hfull),
    fun hnew hroom hfits => congrArg Host.Outcome.next ?_⟩
  rw [State.enqueue_joins hnew hroom hfits, admissionBody_concat]
  rfl

/-! ## A SEND by its verdict (R168, R169) -/

section Sending

variable {s : State} {p : Port} {bytes : List Byte}

theorem exec_nakFraming_nak {reason : NakReason} {tag : Byte} (h : s.device ≠ .held) (hj : judgeSend bytes = .nak reason tag) :
    exec (.nakFraming p bytes) s = .next (s.failSend p reason tag) := by
  refine congrArg Host.Outcome.next ?_
  rw [State.send, if_neg h, hj]

/-- A part held in reset answers neither the SEND nor the frame; any other answers the SEND as the frame (R168, R178). -/
theorem exec_nakFraming_frame {kind : FrameKind} {flags tag : Byte} {payload : List Byte}
    (hj : judgeSend bytes = .frame kind flags tag payload) :
    exec (.nakFraming p bytes) s = .next (s.takeFrame p kind flags tag payload) := by
  refine congrArg Host.Outcome.next ?_
  by_cases hheld : s.device = .held
  · exact (if_pos hheld).trans (State.answer_held hheld p tag _).symm
  · rw [State.send, if_neg hheld, hj]

/-- A failed length check or kind check counts no error (R169). -/
theorem State.failSend_uncounted {reason : NakReason} (h : reason ≠ .framing ∧ reason ≠ .check) (tag : Byte) :
    s.failSend p reason tag = s.nak p tag reason := by
  have hcount : (s.port p).countError reason = s.port p := by
    obtain ⟨hframing, hcheck⟩ := h
    cases reason with
    | framing => exact absurd rfl hframing
    | check => exact absurd rfl hcheck
    | _ => rfl
  rw [State.failSend, hcount, State.setPort_port]

end Sending

/-! ## Data out in a SEND (R166) -/

section DataOut

variable (s : State) (p : Port) (tag : Byte)

@[simp] theorem State.port_placeReply (r : Reply) : (s.placeReply p r).port p = (s.port p).place r := State.port_setPort_self _ _ _

@[simp] theorem State.dataOut_nak (reason : NakReason) : ((s.nak p tag reason).port p).dataOut = [] := by simp [State.nak]

@[simp] theorem State.dataOut_ack (body : ReplyBody) : ((s.ack p tag body).port p).dataOut = [] := by simp [State.ack]

@[simp] theorem State.port_arbitrate : s.arbitrate.port p = s.port p := by
  rw [State.arbitrate_frame]
  rfl

theorem State.dataOut_takeAttach : ((s.takeAttach p tag).port p).dataOut = [] := by
  unfold State.takeAttach
  cases (s.port p).state <;> simp

theorem State.dataOut_takeDetach : ((s.takeDetach p tag).port p).dataOut = [] := by
  unfold State.takeDetach
  cases (s.port p).state <;> simp

theorem State.dataOut_takeRenew : ((s.takeRenew p tag).port p).dataOut = [] := by
  unfold State.takeRenew
  cases (s.port p).state <;> simp

theorem State.dataOut_takeReadEvents : ((s.takeReadEvents p tag).port p).dataOut = [] := by
  unfold State.takeReadEvents
  cases (s.port p).state <;> simp

theorem State.dataOut_takeAbort : ((s.takeAbort p tag).port p).dataOut = [] := by
  unfold State.takeAbort State.abortTaken
  cases (s.port p).state <;> simp

theorem State.dataOut_enqueue (k : CommandKind) (flags : Byte) (payload : List Byte) :
    ((s.enqueue p k flags tag payload).port p).dataOut = [] := by
  unfold State.enqueue
  simp only
  split
  · simp
  · split <;> simp

theorem State.dataOut_takeCommand (k : CommandKind) (flags : Byte) (payload : List Byte) :
    ((s.takeCommand p k flags tag payload).port p).dataOut = [] := by
  unfold State.takeCommand
  cases (s.port p).state <;> simp [State.dataOut_enqueue]

/-- A frame's answer places a reply, and so leaves data out held at 0, unless the part is held in reset. -/
theorem State.dataOut_takeFrame {s : State} (h : s.device ≠ .held) (kind : FrameKind) (flags : Byte) (payload : List Byte) :
    ((s.takeFrame p kind flags tag payload).port p).dataOut = [] := by
  unfold State.takeFrame State.answer
  cases hd : s.device with
  | held => exact absurd hd h
  | starting => exact s.dataOut_nak p tag _
  | ready =>
    cases kind with
    | attach => exact s.dataOut_takeAttach p tag
    | detach => exact s.dataOut_takeDetach p tag
    | renew => exact s.dataOut_takeRenew p tag
    | readEvents => exact s.dataOut_takeReadEvents p tag
    | status => exact s.dataOut_ack p tag _
    | abort => exact s.dataOut_takeAbort p tag
    | queued k => exact s.dataOut_takeCommand p tag k flags payload

theorem exec_nakFraming_dataOut {s : State} (h : s.device ≠ .held) (bytes : List Byte) :
    ∃ t, exec (.nakFraming p bytes) s = .next t ∧ (t.port p).dataOut = [] := by
  cases hj : judgeSend bytes with
  | nak reason tag => exact ⟨_, exec_nakFraming_nak h hj, State.dataOut_nak _ p tag reason⟩
  | frame kind flags tag payload => exact ⟨_, exec_nakFraming_frame hj, State.dataOut_takeFrame p tag h kind flags payload⟩

/-- A transaction whose lead byte is neither that of a SEND nor that of a FETCH holds data out at 0 and does nothing else (R166). -/
theorem exec_ignoredTransaction_other {s : State} (h : s.device ≠ .held) {bytes : List Byte} (hsend : bytes.head? ≠ some sendLead)
    (hfetch : bytes.head? ≠ some fetchLead) : exec (.ignoredTransaction p bytes) s = .next (s.setPort p (s.port p).holdData) := by
  refine congrArg Host.Outcome.next ?_
  rcases s.transaction_cases p bytes with ⟨rest, rfl, -⟩ | ⟨rest, rfl, -⟩ | ⟨-, -, htransaction⟩
  · exact absurd rfl hsend
  · exact absurd rfl hfetch
  · rw [htransaction, if_neg h]

end DataOut

/-- Settles O7: each clause of the link checks by its verdict, each frame by the row of its kind, and each transaction by its lead
byte. -/
theorem transactionsAreJudgedByTheirBytes : Obligations.TransactionsAreJudgedByTheirBytes := by
  refine ⟨⟨fun s p bytes h => ⟨fun h5 => ?_, fun h5 hlen => ?_, fun h5 hlen hcut => ?_, fun hlen hall hcrc => ?_,
    fun hlen hall hcrc hkind => ?_⟩, fun s p bytes flags tag payload =>
      ⟨exec_nakFraming_frame, exec_nakFraming_frame, exec_nakFraming_frame, exec_nakFraming_frame, exec_nakFraming_frame,
        exec_nakFraming_frame, fun k hj => ?_⟩⟩, fun s p h => ⟨fun bytes hsend hfetch => ?_, fun rest => ⟨rfl, rfl⟩, fun bytes => ?_⟩⟩
  · exact exec_nakFraming_nak h (judgeSend_short h5)
  · rw [exec_nakFraming_nak h (judgeSend_long h5 hlen), State.failSend_uncounted (by simp)]
    rfl
  · exact exec_nakFraming_nak h (judgeSend_cut h5 hlen hcut)
  · exact exec_nakFraming_nak h (judgeSend_badCheck hlen hall hcrc)
  · rw [exec_nakFraming_nak h (judgeSend_noKind hlen hall hcrc hkind), State.failSend_uncounted (by simp)]
    rfl
  · exact (exec_nakFraming_frame hj).trans (exec_commandAdmission (length_le_of_judgeSend hj)).symm
  · exact exec_ignoredTransaction_other p h hsend hfetch
  · obtain ⟨t, ht, hdata⟩ := exec_nakFraming_dataOut p h bytes
    exact ⟨t, ht, hdata, fun i => by rw [PortRec.dataOutAt, hdata]; rfl⟩

end Sys2Proof.Machine
end

section
namespace Sys2Proof.Machine

-- One theorem is checked at a time, for the memory limit.
set_option Elab.async false

/-! The end of the profile load: the profile in force, a frame start with nothing composed and no waiter, and the first sample. -/

/-- What the load makes of an image (R181). -/
theorem loadedProfile_cases (image : Option (List Byte)) :
    (judgeImage image = .ok (loadedProfile image).1 ∧ (loadedProfile image).2 = false)
      ∨ (∃ e, judgeImage image = .error e) ∧ (loadedProfile image).1 = Profile.default_ ∧ (loadedProfile image).2 = true := by
  unfold loadedProfile
  cases judgeImage image with
  | ok p => exact .inl ⟨rfl, rfl⟩
  | error e => exact .inr ⟨⟨e, rfl⟩, rfl, rfl⟩

/-! ## A frame start with nothing to show (R90, R99) -/

section QuietFrame

variable {s : State}

/-- With no window the list is empty and names no focus (R26, R90). -/
theorem State.composition_empty (h : s.windows = []) : s.composition = ⟨[], none⟩ := by
  have hfocus : s.focusWindow = none := by
    unfold State.focusWindow State.windowOf
    rw [h]
    cases s.focus <;> rfl
  rw [State.composition, h, hfocus]
  rfl

/-- With no window and no LIVE port the brightness is the profile's default (R99). -/
theorem State.effectiveBrightness_default (h : s.windows = []) (hlive : ∀ p, (s.port p).state ≠ .live) :
    s.effectiveBrightness s.composition = s.prof.defaultBrightness := by
  have hlevels : s.liveLevels = [] := List.eq_nil_iff_forall_not_mem.2 fun b hb => by
    obtain ⟨p, hp, -⟩ := (s.mem_liveLevels b).1 hb
    exact hlive p hp
  have hasked : s.askedBrightness = s.prof.defaultBrightness := by
    rw [State.askedBrightness_eq, hlevels]
    rfl
  refine (s.effectiveBrightness_cases hasked).2 ?_
  rintro ⟨w, hw, -⟩
  rw [h] at hw
  cases hw

/-- With no waiter and no LIVE port a frame start completes no command and grants no slice (R47, R58). -/
theorem State.frameStart_quiet (hwaiter : ∀ p, (s.port p).waiter = false) (hlive : ∀ p, (s.port p).state ≠ .live) :
    s.frameStart = s.frameLatched := by
  have hmark (p : Port) : s.frameLatched.completeMark p = s.frameLatched :=
    if_neg fun h => Bool.false_ne_true ((hwaiter p).symm.trans h)
  have hall : allPorts.foldl State.completeMark s.frameLatched = s.frameLatched := by
    simp only [allPorts, List.foldl_cons, List.foldl_nil, hmark]
  rw [State.frameStart_eq, hall]
  refine s.frameLatched.arbitrate_cases.resolve_right ?_
  rintro ⟨-, p, heligible, -⟩
  exact hlive p (State.eligible_live heligible)

end QuietFrame

/-! ## The first sample (R134, R136) -/

/-- The sampler after its first sample under a profile. -/
def firstSample (prof : Profile) : TouchReading → Sampler
  | some (x, y) => if prof.touchEnabled then ⟨false, 1, some (mapTouch prof x y), none⟩ else .reset
  | none => .reset

/-- On a sampler in its reset state the first sample counts a contact, and without one changes nothing. -/
theorem State.sampleTouch_first {s : State} (hd : s.device = .ready) (hr : s.sampler = .reset) (first : TouchReading) :
    (if s.sampling then s.sampleTouch first else s) = { s with sampler := firstSample s.prof first } := by
  have hsame : s = { s with sampler := .reset } := by rw [← hr]
  have hup : s.sampler.down = false := by rw [hr]; rfl
  have hrun : s.sampler.run = 0 := by rw [hr]; rfl
  cases ht : s.prof.touchEnabled with
  | false =>
    have hoff : firstSample s.prof first = .reset := by
      rcases first with _ | ⟨x, y⟩
      · rfl
      · exact if_neg (by rw [ht]; exact Bool.false_ne_true)
    rw [if_neg fun h => Bool.false_ne_true (ht.symm.trans (s.sampling_iff.1 h).2), hoff]
    exact hsame
  | true =>
    rw [if_pos (s.sampling_iff.2 ⟨hd, ht⟩)]
    rcases first with _ | ⟨x, y⟩
    · rw [State.sampleTouch_noContactUp hup, hr]
      rfl
    · have hon : firstSample s.prof (some (x, y)) = ⟨false, 1, some (mapTouch s.prof x y), none⟩ := if_pos ht
      rw [State.sampleTouch_contactUp hup, State.contactUp_first hrun, hon, hr]
      rfl

/-- The step in which the load ends, on a device with no session and no window (R103, R182). -/
theorem State.becomeReady_eq {s : State} (hw : s.windows = []) (hr : s.sampler = .reset)
    (hp : ∀ p, (s.port p).state = .detached ∧ (s.port p).waiter = false) (image : Option (List Byte)) (first : TouchReading) :
    s.becomeReady image first = { (s.takeProfile (loadedProfile image)).frameLatched with
      latched := some ⟨[], none⟩, brightness := (loadedProfile image).1.defaultBrightness
      sampler := firstSample (loadedProfile image).1 first } := by
  have hport (p : Port) := s.port_takeProfile (loadedProfile image) p
  have hwaiter (p : Port) : ((s.takeProfile (loadedProfile image)).port p).waiter = false := by
    rw [hport]
    exact (hp p).2
  have hlive (p : Port) : ((s.takeProfile (loadedProfile image)).port p).state ≠ .live := by
    rw [hport, PortRec.startState]
    split <;> exact nofun
  have hlatched := State.frameStart_quiet hwaiter hlive
  have hbright := State.effectiveBrightness_default (s := s.takeProfile (loadedProfile image)) hw hlive
  have hlist := State.composition_empty (s := s.takeProfile (loadedProfile image)) hw
  unfold State.becomeReady
  rw [hlatched]
  refine (State.sampleTouch_first (s := (s.takeProfile (loadedProfile image)).frameLatched) rfl hr first).trans ?_
  rw [State.frameLatched, hbright, hlist]
  rfl

/-- The built-in default profile has the values of Table 12-1, key 7 apart from the other keys. -/
theorem Profile.default_keys (k : KeyId) : Profile.default_.routing.get k = (if k = 7 then .silence else .focus)
    ∧ Profile.default_.repeatEnabled.get k = decide (k ≠ 7) := by
  revert k
  decide

/-- Settles O4: the load's last step is the frame start on the state with the profile in force, and the sampler's first sample. -/
theorem profileLoadMakesTheDeviceReady : Obligations.ProfileLoadMakesTheDeviceReady := by
  refine ⟨⟨rfl, rfl, rfl, rfl, rfl, rfl, rfl, rfl, rfl, rfl, rfl, rfl, rfl, Profile.default_keys, rfl, rfl, fun p => ?_⟩,
    fun s image first hd hw _ hr hp => ?_⟩
  · rw [Profile.default_, Vector.get_replicate]
    exact ⟨rfl, rfl, rfl, rfl, rfl, rfl, rfl⟩
  refine ⟨_, (loadedProfile image).1, (congrArg Host.Outcome.next (if_pos hd)).trans
    (congrArg Host.Outcome.next (State.becomeReady_eq hw hr hp image first)), loadedProfile_cases image, rfl, rfl,
    fun p => ?_, rfl, rfl, rfl, rfl, rfl, rfl, rfl, rfl, rfl, ?_, rfl, hw, rfl, rfl, ⟨rfl, rfl, rfl⟩, ⟨rfl, rfl, rfl⟩,
    ⟨rfl, rfl, rfl, rfl⟩, rfl, rfl, rfl⟩
  · exact s.port_takeProfile (loadedProfile image) p
  · rcases first with _ | ⟨x, y⟩ <;> rfl

end Sys2Proof.Machine
end

section
namespace Sys2Proof.Machine

-- One theorem is checked at a time, for the memory limit.
set_option Elab.async false

/-! The profile image: the CRC-16, the checks of R181 in their order, and a body read field by field. -/

/-! ## The CRC-16 (R180) -/

/-- A byte joins the CRC in its upper half, most significant bit first. -/
theorem crc16_concat (bytes : List Byte) (b : Byte) :
    crc16 (bytes ++ [b]) = Nat.repeat crc16Bit 8 (crc16 bytes ^^^ (b ++ 0#8)) := by
  have hshift : (b.setWidth 16 : BitVec 16) <<< (8 : Nat) = b ++ 0#8 := by
    apply BitVec.eq_of_toNat_eq
    have hb := b.isLt
    have happend : (b ++ 0#8).toNat = b.toNat <<< 8 ||| 0 := BitVec.toNat_append b 0#8
    rw [Nat.or_zero] at happend
    refine .trans ?_ happend.symm
    simp only [BitVec.toNat_shiftLeft, BitVec.toNat_setWidth, Nat.shiftLeft_eq]
    omega
  rw [crc16, List.foldl_append, List.foldl_cons, List.foldl_nil, hshift]
  rfl

theorem crc16Bit_eq (c : BitVec 16) : crc16Bit c = if c.getLsbD 15 = true then (c <<< 1) ^^^ 0x1021#16 else c <<< 1 := by
  rw [crc16Bit, BitVec.msb_eq_getLsbD_last]

/-! ## The checks of an image in their order (R181) -/

section Judging

variable {image : List Byte}

theorem judgeImage_noMarker (h : image.take 2 ≠ [0x56#8, 0x53#8]) : judgeImage (some image) = .error .absent := if_pos h

theorem judgeImage_otherVersion (hmarker : image.take 2 = [0x56#8, 0x53#8]) (h : byteAt image 2 ≠ 1 ∨ wordAt image 3 ≠ 132) :
    judgeImage (some image) = .error .version :=
  (if_neg (not_not.2 hmarker)).trans (if_pos h)

/-- An image of the version that is known is judged by its CRC, and then by its body. -/
theorem judgeImage_version1 (hmarker : image.take 2 = [0x56#8, 0x53#8]) (hversion : byteAt image 2 = 1)
    (hlength : wordAt image 3 = 132) :
    judgeImage (some image) = if image.length < 139 ∨ wordAt image 137 ≠ (crc16 (image.take 137)).toNat then .error .crc
      else ((parseBody ((image.drop 5).take 132)).elim (.error .range) .ok) := by
  have hknown : ¬ (byteAt image 2 ≠ 1 ∨ wordAt image 3 ≠ 132) := by simp [hversion, hlength]
  rw [judgeImage, if_neg (not_not.2 hmarker), if_neg hknown]
  cases parseBody ((image.drop 5).take 132) <;> rfl

theorem judgeImage_badCrc (hmarker : image.take 2 = [0x56#8, 0x53#8]) (hversion : byteAt image 2 = 1)
    (hlength : wordAt image 3 = 132) (h : image.length < 139 ∨ wordAt image 137 ≠ (crc16 (image.take 137)).toNat) :
    judgeImage (some image) = .error .crc :=
  (judgeImage_version1 hmarker hversion hlength).trans (if_pos h)

theorem judgeImage_body (hmarker : image.take 2 = [0x56#8, 0x53#8]) (hversion : byteAt image 2 = 1)
    (hlength : wordAt image 3 = 132) (hwhole : 139 ≤ image.length)
    (hcrc : wordAt image 137 = (crc16 (image.take 137)).toNat) :
    judgeImage (some image) = (parseBody ((image.drop 5).take 132)).elim (.error .range) .ok := by
  have hpasses : ¬ (image.length < 139 ∨ wordAt image 137 ≠ (crc16 (image.take 137)).toNat) := by
    rintro (h | h)
    · exact absurd hwhole (Nat.not_le.2 h)
    · exact h hcrc
  exact (judgeImage_version1 hmarker hversion hlength).trans (if_neg hpasses)

/-- Every check before the last answers a failure, so a loaded profile is one that the body was read as. -/
theorem parseBody_of_judgeImage {p : Profile} (h : judgeImage (some image) = .ok p) :
    parseBody ((image.drop 5).take 132) = some p := by
  by_cases hmarker : image.take 2 = [0x56#8, 0x53#8]
  · by_cases hversion : byteAt image 2 ≠ 1 ∨ wordAt image 3 ≠ 132
    · cases (judgeImage_otherVersion hmarker hversion).symm.trans h
    obtain ⟨hversion, hlength⟩ := not_or.1 hversion
    have hjudged := judgeImage_version1 hmarker (not_not.1 hversion) (not_not.1 hlength)
    rw [h] at hjudged
    split at hjudged
    · cases hjudged
    · cases hbody : parseBody ((image.drop 5).take 132) with
      | none => rw [hbody] at hjudged; cases hjudged
      | some q => rw [hbody] at hjudged; cases hjudged; rfl
  · cases (judgeImage_noMarker hmarker).symm.trans h

end Judging

/-! ## The bytes of the body (R180) -/

section Bytes

variable (bytes : List Byte) {i : Nat}

theorem byteAt_lt (i : Nat) : byteAt bytes i < 256 := BitVec.isLt _

theorem getD_take_body (h : i < 132) : (bytes.take 132).getD i 0 = bytes.getD i 0 := by
  rw [List.getD_eq_getElem?_getD, List.getD_eq_getElem?_getD, List.getElem?_take_of_lt h]

theorem byteAt_take_body (h : i < 132) : byteAt (bytes.take 132) i = byteAt bytes i :=
  congrArg BitVec.toNat (getD_take_body bytes h)

theorem wordAt_take_body (h : i + 1 < 132) : wordAt (bytes.take 132) i = wordAt bytes i := by
  rw [wordAt, byteAt_take_body bytes h, byteAt_take_body bytes (Nat.lt_of_succ_lt h)]
  rfl

theorem signedWordAt_take_body (h : i + 1 < 132) : signedWordAt (bytes.take 132) i = signedWordAt bytes i := by
  rw [signedWordAt, wordAt_take_body bytes h]
  rfl

theorem cellAt_take_body (h : i + 2 < 132) : cellAt (bytes.take 132) i = cellAt bytes i := by
  simp (disch := omega) only [cellAt, byteAt_take_body, getD_take_body]

/-- The bytes after the body are not read, so the body may be taken with them. -/
theorem parseBody_take_body : parseBody (bytes.take 132) = parseBody bytes := by
  have hport (q : Nat) (hq : q < 4) : portProfileAt (bytes.take 132) q = portProfileAt bytes q := by
    simp (disch := omega) only [portProfileAt, byteAt_take_body, wordAt_take_body]
  have hscalars : scalarsInRange (bytes.take 132) = scalarsInRange bytes := by
    have hkeys : List.range 8 = [0, 1, 2, 3, 4, 5, 6, 7] := rfl
    simp (disch := omega) only [scalarsInRange, hkeys, List.all_cons, List.all_nil, byteAt_take_body, wordAt_take_body,
      signedWordAt_take_body, cellAt_take_body]
  have hpalette (k : Fin 16) : paletteAt (bytes.take 132) k = paletteAt bytes k := by
    simp (disch := omega) only [paletteAt, getD_take_body]
  have hkey (k : Fin 8) : byteAt (bytes.take 132) (68 + k) = byteAt bytes (68 + k)
      ∧ byteAt (bytes.take 132) (76 + k) = byteAt bytes (76 + k) :=
    ⟨byteAt_take_body bytes (by omega), byteAt_take_body bytes (by omega)⟩
  simp (disch := omega) only [parseBody, hport, hscalars, hpalette, hkey, byteAt_take_body, wordAt_take_body,
    signedWordAt_take_body, cellAt_take_body]

theorem getD_drop_body (i : Nat) : (bytes.drop 5).getD i 0 = bytes.getD (5 + i) 0 := by
  rw [List.getD_eq_getElem?_getD, List.getD_eq_getElem?_getD, List.getElem?_drop]

theorem byteAt_drop_body (i : Nat) : byteAt (bytes.drop 5) i = byteAt bytes (5 + i) :=
  congrArg BitVec.toNat (getD_drop_body bytes i)

theorem wordAt_drop_body (i : Nat) : wordAt (bytes.drop 5) i = wordAt bytes (5 + i) := by
  rw [wordAt, byteAt_drop_body, byteAt_drop_body]
  rfl

theorem signedWordAt_drop_body (i : Nat) : signedWordAt (bytes.drop 5) i = signedWordAt bytes (5 + i) := by
  rw [signedWordAt, wordAt_drop_body]
  rfl

theorem cellAt_drop_body (i : Nat) : cellAt (bytes.drop 5) i = cellAt bytes (5 + i) := by
  simp only [cellAt, byteAt_drop_body, getD_drop_body, Nat.add_assoc]

end Bytes

/-! ## Codes (R180) -/

theorem boolOf_isSome (n : Nat) : (boolOf n).isSome = true ↔ n ≤ 1 := by
  match n with
  | 0 | 1 => decide
  | n + 2 => simp [boolOf]

theorem bandOf_isSome (n : Nat) : (bandOf n).isSome = true ↔ n ≤ 2 := by
  match n with
  | 0 | 1 | 2 => decide
  | n + 3 => simp [bandOf]

theorem routingOf_eq (n : Nat) :
    routingOf n = [Routing.focus, .port 0, .port 1, .port 2, .port 3, .all, .silence, .none][n]? := by
  match n with
  | 0 | 1 | 2 | 3 | 4 | 5 | 6 | 7 => rfl
  | n + 8 => rfl

theorem routingOf_isSome (n : Nat) : (routingOf n).isSome = true ↔ n ≤ 7 := by
  match n with
  | 0 | 1 | 2 | 3 | 4 | 5 | 6 | 7 => decide
  | n + 8 => simp [routingOf]

/-! ## The record of a port (R180, R181) -/

section Port

variable (body : List Byte) (q : Nat)

/-- The fields of port `q`'s record lie in their ranges (Table 12-1). -/
def PortInRange : Prop :=
  byteAt body (86 + 8 * q) ≤ 1 ∧ byteAt body (87 + 8 * q) ≤ 2 ∧ byteAt body (88 + 8 * q) ≤ 24 ∧ wordAt body (89 + 8 * q) ≤ 1024
    ∧ byteAt body (91 + 8 * q) ≤ 1 ∧ 1 ≤ byteAt body (92 + 8 * q) ∧ byteAt body (93 + 8 * q) ≤ 60

/-- A port's fields of the profile are those of port `q`'s record. -/
def PortProfile.ReadFrom (r : PortProfile) : Prop :=
  (r.enabled = true ↔ byteAt body (86 + 8 * q) = 1) ∧ r.maxBand.rank = byteAt body (87 + 8 * q)
    ∧ r.windowQuota = byteAt body (88 + 8 * q) ∧ r.stripQuota = wordAt body (89 + 8 * q)
    ∧ (r.urgentPermitted = true ↔ byteAt body (91 + 8 * q) = 1)
    ∧ r.leasePeriod = 100 * byteAt body (92 + 8 * q) ∧ r.gracePeriod = 1000 * byteAt body (93 + 8 * q)

variable {body q}

/-- A yes/no byte that has a meaning is 1 exactly when it means yes. -/
theorem eq_true_iff_of_boolOf {n : Nat} {b : Bool} (h : boolOf n = some b) : b = true ↔ n = 1 := by
  rw [(boolOf_eq_some_iff n b).1 h]
  cases b <;> decide

theorem portProfileAt_eq_some_iff (r : PortProfile) : portProfileAt body q = some r ↔
    boolOf (byteAt body (86 + 8 * q)) = some r.enabled ∧ bandOf (byteAt body (87 + 8 * q)) = some r.maxBand
      ∧ boolOf (byteAt body (91 + 8 * q)) = some r.urgentPermitted
      ∧ (byteAt body (88 + 8 * q) ≤ 24 ∧ wordAt body (89 + 8 * q) ≤ 1024 ∧ 1 ≤ byteAt body (92 + 8 * q)
        ∧ byteAt body (93 + 8 * q) ≤ 60)
      ∧ r.windowQuota = byteAt body (88 + 8 * q) ∧ r.stripQuota = wordAt body (89 + 8 * q)
      ∧ r.leasePeriod = 100 * byteAt body (92 + 8 * q) ∧ r.gracePeriod = 1000 * byteAt body (93 + 8 * q) := by
  have hplace (j : Nat) : 86 + 8 * q + j = 86 + j + 8 * q := Nat.add_right_comm _ _ _
  have hmax (i : Nat) : byteAt body i ≤ 255 := Nat.le_of_lt_succ (byteAt_lt body i)
  obtain ⟨enabled, band, windows, strips, urgent, lease, grace⟩ := r
  simp only [portProfileAt, hplace, Nat.reduceAdd]
  split
  · rename_i a b c ha hb hc
    rw [ha, hb, hc]
    simp only [inRange, hmax, decide_true, Bool.and_true, Bool.and_eq_true, decide_eq_true_eq, and_assoc,
      Option.ite_none_right_eq_some, Option.some.injEq, PortProfile.mk.injEq]
    constructor
    · rintro ⟨hw, hs, hl, hg, rfl, rfl, rfl, rfl, rfl, rfl, rfl⟩
      exact ⟨rfl, rfl, rfl, hw, hs, hl, hg, rfl, rfl, rfl, rfl⟩
    · rintro ⟨rfl, rfl, rfl, hw, hs, hl, hg, rfl, rfl, rfl, rfl⟩
      exact ⟨hw, hs, hl, hg, rfl, rfl, rfl, rfl, rfl, rfl, rfl⟩
  · rename_i hnone
    refine ⟨nofun, fun ⟨h1, h2, h3, _⟩ => (hnone _ _ _ h1 h2 h3).elim⟩

theorem portProfileAt_isSome : (portProfileAt body q).isSome = true ↔ PortInRange body q := by
  rw [Option.isSome_iff_exists, PortInRange, ← boolOf_isSome, ← bandOf_isSome, ← boolOf_isSome]
  simp only [portProfileAt_eq_some_iff, Option.isSome_iff_exists]
  constructor
  · rintro ⟨r, henabled, hband, hurgent, ⟨hw, hs, hl, hg⟩, -⟩
    exact ⟨⟨_, henabled⟩, ⟨_, hband⟩, hw, hs, ⟨_, hurgent⟩, hl, hg⟩
  · rintro ⟨⟨enabled, henabled⟩, ⟨band, hband⟩, hw, hs, ⟨urgent, hurgent⟩, hl, hg⟩
    exact ⟨⟨enabled, band, _, _, urgent, _, _⟩, henabled, hband, hurgent, ⟨hw, hs, hl, hg⟩, rfl, rfl, rfl, rfl⟩

theorem portProfileAt_readFrom {r : PortProfile} (h : portProfileAt body q = some r) : r.ReadFrom body q := by
  obtain ⟨henabled, hband, hurgent, -, hw, hs, hl, hg⟩ := (portProfileAt_eq_some_iff r).1 h
  exact ⟨eq_true_iff_of_boolOf henabled, ((bandOf_eq_some_iff _ _).1 hband).symm, hw, hs, eq_true_iff_of_boolOf hurgent, hl, hg⟩

end Port

/-! ## The body (R180, R181) -/

section Body

variable (body : List Byte)

/-- Every field of the body lies in its range (Table 12-1), the glyph codes of the desk and lapse cells among them (R3). -/
def BodyInRange : Prop :=
  40 ≤ byteAt body 0 ∧ byteAt body 0 ≤ 100 ∧ 15 ≤ byteAt body 1 ∧ byteAt body 1 ≤ 40
    ∧ byteAt body 50 + 256 * (byteAt body 51 % 2) ≤ 255 ∧ byteAt body 53 + 256 * (byteAt body 54 % 2) ≤ 255
    ∧ byteAt body 56 ≤ 100 ∧ byteAt body 57 ≤ 100 ∧ byteAt body 58 ≤ 1
    ∧ -2048 ≤ signedWordAt body 59 ∧ signedWordAt body 59 ≤ 2047 ∧ -2048 ≤ signedWordAt body 61 ∧ signedWordAt body 61 ≤ 2047
    ∧ 512 ≤ wordAt body 63 ∧ wordAt body 63 ≤ 2047 ∧ 512 ≤ wordAt body 65 ∧ wordAt body 65 ≤ 2047
    ∧ 1 ≤ byteAt body 67 ∧ byteAt body 67 ≤ 15
    ∧ (∀ k, k < 8 → byteAt body (68 + k) ≤ 7 ∧ byteAt body (76 + k) ≤ 1)
    ∧ 25 ≤ byteAt body 84 ∧ 5 ≤ byteAt body 85 ∧ byteAt body 85 ≤ 127
    ∧ ∀ q, q < 4 → PortInRange body q

/-- Every field of the profile is read from its bytes of the body (R180). -/
def Profile.ReadFrom (p : Profile) : Prop :=
  p.gridCols = byteAt body 0 ∧ p.gridRows = byteAt body 1
    ∧ (∀ i : Fin 16, p.palette.get i = ⟨body.getD (2 + 3 * i) 0, body.getD (3 + 3 * i) 0, body.getD (4 + 3 * i) 0⟩)
    ∧ p.deskCell = cellAt body 50 ∧ p.lapseCell = cellAt body 53
    ∧ p.defaultBrightness = byteAt body 56 ∧ p.criticalFloor = byteAt body 57 ∧ (p.touchEnabled = true ↔ byteAt body 58 = 1)
    ∧ p.offsetX = signedWordAt body 59 ∧ p.offsetY = signedWordAt body 61 ∧ p.gainX = wordAt body 63 ∧ p.gainY = wordAt body 65
    ∧ p.moveThreshold = byteAt body 67
    ∧ (∀ k : KeyId, some (p.routing.get k)
          = [Routing.focus, .port 0, .port 1, .port 2, .port 3, .all, .silence, .none][byteAt body (68 + k)]?
        ∧ (p.repeatEnabled.get k = true ↔ byteAt body (76 + k) = 1))
    ∧ p.repeatDelay = 10 * byteAt body 84 ∧ p.repeatInterval = 10 * byteAt body 85
    ∧ ∀ q : Port, (p.ports.get q).ReadFrom body q

variable {body}

/-- The ranges of a body are those of its scalar fields and of its four port records. -/
theorem bodyInRange_iff : BodyInRange body ↔ scalarsInRange body = true ∧ ∀ q, q < 4 → PortInRange body q := by
  have hmax (i : Nat) : byteAt body i ≤ 255 := Nat.le_of_lt_succ (byteAt_lt body i)
  simp only [BodyInRange, scalarsInRange, inRange, hmax, decide_true, Bool.and_true, Bool.and_eq_true, decide_eq_true_eq, and_assoc,
    List.all_eq_true, List.mem_range, boolOf_isSome, routingOf_isSome, (cellAt_fields body _).1, forall_and]

/-- A routing byte in its range names a routing. -/
theorem BodyInRange.routed (h : BodyInRange body) (k : KeyId) : ∃ r, routingOf (byteAt body (68 + k)) = some r := by
  obtain ⟨-, -, -, -, -, -, -, -, -, -, -, -, -, -, -, -, -, -, -, hkeys, -⟩ := h
  exact Option.isSome_iff_exists.1 ((routingOf_isSome _).2 (hkeys k k.isLt).1)

/-- A body that is read is in range, and is read field by field. -/
theorem parseBody_eq_some {p : Profile} (h : parseBody body = some p) : BodyInRange body ∧ p.ReadFrom body := by
  unfold parseBody at h
  split at h
  · rename_i p0 p1 p2 p3 h0 h1 h2 h3
    obtain ⟨hscalars, hp⟩ := Option.ite_none_right_eq_some.1 h
    have hports : ∀ q : Port, portProfileAt body q = some ((#v[p0, p1, p2, p3] : Vector PortProfile 4).get q)
      | 0 => h0
      | 1 => h1
      | 2 => h2
      | 3 => h3
    have hrange : BodyInRange body :=
      bodyInRange_iff.2 ⟨hscalars, fun q hq => portProfileAt_isSome.1 (Option.isSome_of_eq_some (hports ⟨q, hq⟩))⟩
    cases hp
    refine ⟨hrange, rfl, rfl, fun i => ?_, rfl, rfl, rfl, rfl, beq_iff_eq, rfl, rfl, rfl, rfl, rfl, fun k => ⟨?_, ?_⟩, rfl, rfl,
      fun q => portProfileAt_readFrom (hports q)⟩
    · rw [Vector.get_eq_getElem, Vector.getElem_ofFn]
      rfl
    · rw [Vector.get_eq_getElem, Vector.getElem_ofFn, ← routingOf_eq]
      obtain ⟨r, hr⟩ := hrange.routed k
      rw [hr]
      rfl
    · rw [Vector.get_eq_getElem, Vector.getElem_ofFn]
      exact beq_iff_eq
  · cases h

theorem parseBody_isSome : (parseBody body).isSome = true ↔ BodyInRange body := by
  constructor
  · intro h
    obtain ⟨p, hp⟩ := Option.isSome_iff_exists.1 h
    exact (parseBody_eq_some hp).1
  · intro hrange
    obtain ⟨hscalars, hports⟩ := bodyInRange_iff.1 hrange
    have hport (q : Nat) (hq : q < 4) := Option.isSome_iff_exists.1 (portProfileAt_isSome.2 (hports q hq))
    obtain ⟨p0, h0⟩ := hport 0 (by decide)
    obtain ⟨p1, h1⟩ := hport 1 (by decide)
    obtain ⟨p2, h2⟩ := hport 2 (by decide)
    obtain ⟨p3, h3⟩ := hport 3 (by decide)
    rw [parseBody, h0, h1, h2, h3]
    simp only [if_pos hscalars, Option.isSome_some]

end Body

/-! ## The image (R181) -/

section Image

variable {image : List Byte}

/-- The ranges of a loaded profile (Table 12-1). -/
theorem Profile.ReadFrom.in_range {body : List Byte} {p : Profile} (hread : p.ReadFrom body) (hrange : BodyInRange body) :
    40 ≤ p.gridCols ∧ p.gridCols ≤ 100 ∧ 15 ≤ p.gridRows ∧ p.gridRows ≤ 40
      ∧ p.deskCell.glyph ≤ 255 ∧ p.lapseCell.glyph ≤ 255 ∧ p.defaultBrightness ≤ 100 ∧ p.criticalFloor ≤ 100
      ∧ -2048 ≤ p.offsetX ∧ p.offsetX ≤ 2047 ∧ -2048 ≤ p.offsetY ∧ p.offsetY ≤ 2047
      ∧ 512 ≤ p.gainX ∧ p.gainX ≤ 2047 ∧ 512 ≤ p.gainY ∧ p.gainY ≤ 2047
      ∧ 1 ≤ p.moveThreshold ∧ p.moveThreshold ≤ 15
      ∧ 250 ≤ p.repeatDelay ∧ p.repeatDelay ≤ 2550 ∧ 50 ≤ p.repeatInterval ∧ p.repeatInterval ≤ 1270
      ∧ ∀ q : Port, (p.ports.get q).windowQuota ≤ 24 ∧ (p.ports.get q).stripQuota ≤ 1024
          ∧ 100 ≤ (p.ports.get q).leasePeriod ∧ (p.ports.get q).leasePeriod ≤ 25500
          ∧ (p.ports.get q).gracePeriod ≤ 60000 := by
  have hmax (i : Nat) : byteAt body i ≤ 255 := Nat.le_of_lt_succ (byteAt_lt body i)
  obtain ⟨hcols, hrows, -, hdesk, hlapse, hbright, hfloor, -, hx, hy, hgx, hgy, hmove, -, hdelay, hinterval, hports⟩ := hread
  obtain ⟨colsMin, colsMax, rowsMin, rowsMax, deskMax, lapseMax, brightMax, floorMax, -, xMin, xMax, yMin, yMax, gxMin, gxMax, gyMin,
    gyMax, moveMin, moveMax, -, delayMin, intervalMin, intervalMax, hrecords⟩ := hrange
  have delayMax := hmax 84
  rw [hcols, hrows, hdesk, hlapse, hbright, hfloor, hx, hy, hgx, hgy, hmove, hdelay, hinterval, (cellAt_fields body _).1,
    (cellAt_fields body _).1]
  refine ⟨colsMin, colsMax, rowsMin, rowsMax, deskMax, lapseMax, brightMax, floorMax, xMin, xMax, yMin, yMax, gxMin, gxMax, gyMin,
    gyMax, moveMin, moveMax, by omega, by omega, by omega, by omega, fun q => ?_⟩
  obtain ⟨-, -, hwindows, hstrips, -, hlease, hgrace⟩ := hports q
  obtain ⟨-, -, windowsMax, stripsMax, -, leaseMin, graceMax⟩ := hrecords q q.isLt
  have leaseMax := hmax (92 + 8 * q)
  rw [hwindows, hstrips, hlease, hgrace]
  exact ⟨windowsMax, stripsMax, by omega, by omega, by omega⟩

/-- A body out of its ranges is a failure of the last check. -/
theorem judgeImage_outOfRange (hmarker : image.take 2 = [0x56#8, 0x53#8]) (hversion : byteAt image 2 = 1)
    (hlength : wordAt image 3 = 132) (hwhole : 139 ≤ image.length)
    (hcrc : wordAt image 137 = (crc16 (image.take 137)).toNat) (h : ¬ BodyInRange (image.drop 5)) :
    judgeImage (some image) = .error .range := by
  have hnone : parseBody (image.drop 5) = none := Option.not_isSome_iff_eq_none.1 (mt parseBody_isSome.1 h)
  rw [judgeImage_body hmarker hversion hlength hwhole hcrc, parseBody_take_body, hnone, Option.elim_none]

theorem judgeImage_loads (hmarker : image.take 2 = [0x56#8, 0x53#8]) (hversion : byteAt image 2 = 1)
    (hlength : wordAt image 3 = 132) (hwhole : 139 ≤ image.length)
    (hcrc : wordAt image 137 = (crc16 (image.take 137)).toNat) (h : BodyInRange (image.drop 5)) :
    ∃ p : Profile, judgeImage (some image) = .ok p ∧ p.ReadFrom (image.drop 5) := by
  obtain ⟨p, hp⟩ := Option.isSome_iff_exists.1 (parseBody_isSome.2 h)
  refine ⟨p, ?_, (parseBody_eq_some hp).2⟩
  rw [judgeImage_body hmarker hversion hlength hwhole hcrc, parseBody_take_body, hp, Option.elim_some]

end Image

/-- Settles O5: the CRC-16 byte by byte, the checks in their order, and the body after the header's 5 bytes read field by field. -/
theorem loadedProfileIsInRange : Obligations.LoadedProfileIsInRange := by
  refine ⟨⟨rfl, fun bytes b => ?_, by decide +kernel⟩, rfl, fun image => judgeImage_noMarker, fun image => judgeImage_otherVersion,
    fun image => judgeImage_badCrc, fun image hmarker hversion hlength hwhole hcrc => ?_, fun image p h => ?_⟩
  · rw [crc16_concat, funext crc16Bit_eq]
  · intro b w signed glyph inside
    have hinside : BodyInRange (image.drop 5) ↔ inside := by
      simp only [BodyInRange, PortInRange, byteAt_drop_body, wordAt_drop_body, signedWordAt_drop_body]
      exact Iff.rfl
    refine ⟨fun h => judgeImage_outOfRange hmarker hversion hlength hwhole hcrc (mt hinside.1 h), fun h => ?_⟩
    obtain ⟨p, hp, hread⟩ := judgeImage_loads hmarker hversion hlength hwhole hcrc (hinside.2 h)
    simp only [Profile.ReadFrom, PortProfile.ReadFrom, getD_drop_body, byteAt_drop_body, wordAt_drop_body, signedWordAt_drop_body,
      cellAt_drop_body] at hread
    obtain ⟨hcols, hrows, hpalette, hrest⟩ := hread
    refine ⟨p, hp, hcols, hrows, fun i => ?_, hrest⟩
    rw [hpalette, ← Nat.add_assoc, ← Nat.add_assoc, ← Nat.add_assoc]
  · obtain ⟨hrange, hread⟩ := parseBody_eq_some (parseBody_of_judgeImage h)
    exact hread.in_range hrange

end Sys2Proof.Machine
end

section
namespace Sys2Proof.Machine

-- One theorem is checked at a time, for the memory limit.
set_option Elab.async false

/-! Reset and the step: what device reset leaves in every block, that it meets every invariant, and the command at the front of the
queue. -/

/-- Settles O1: on a queue that is not empty, the definition of a step is this. -/
theorem stepRunsTheFrontCommand : Obligations.StepRunsTheFrontCommand := fun _ _ _ => rfl

/-! ## The state after reset (R178) -/

/-- The earlier lemmas about a reset are about reset with its device state and its queue of commands replaced. -/
theorem State.reset_eq : ({ State.reset with device := .starting, pending := [] } : State) = State.reset := by
  simp only [State.reset]

theorem State.reset_port (p : Port) : State.reset.port p = PortRec.reset :=
  State.reset_eq ▸ State.port_reset .starting [] p

theorem State.reset_key (k : KeyId) : State.reset.key k = KeyRec.reset := by
  simp [State.key, State.reset, Vector.get_eq_getElem]

/-- The whole pool is available (R9). -/
theorem State.reset_available : State.reset.available = List.range 1024 := by
  simp only [State.reset, Config.strips]

theorem State.reset_generationOf (n : Nat) : State.reset.generationOf n = 0 := by
  simp only [State.generationOf, State.reset, Vector.toList_replicate, List.getD_eq_getElem?_getD, List.getElem?_replicate]
  split <;> rfl

theorem State.reset_headState (p : Port) : State.reset.headState p = .empty := if_pos (congrArg PortRec.queue (State.reset_port p))

theorem State.reset_eligible (p : Port) : State.reset.eligible p = false := by
  rw [State.eligible, State.reset_headState]
  exact Bool.and_false _

/-! ## Every invariant at reset -/

/-- Nothing is queued, so every bound is met (R44, R122, R127, R169). -/
theorem State.reset_linksBounded : State.reset.LinksBounded := by
  intro p
  rw [State.reset_port]
  exact ⟨Nat.zero_le _, Nat.zero_le _, Nat.zero_le _, Nat.zero_le _, Nat.zero_le _, Nat.zero_le _⟩

/-- The engine has no slice, and no port has a head (R45, R50). -/
theorem State.reset_engineAgrees : State.reset.EngineAgrees where
  quietStart _ p := congrArg PortRec.state (State.reset_port p)
  working _ := State.reset_eligible
  inFlight _ hslice := nomatch hslice
  parked p hwaiter := by
    rw [State.reset_port] at hwaiter
    cases hwaiter
  silent p _ := congrArg PortRec.queue (State.reset_port p)
  closing p _ _ := congrArg PortRec.queue (State.reset_port p)
  run := Nat.zero_le _
  waits hwaits := absurd rfl hwaits

/-- Every port is DETACHED and holds nothing (R102, R103). -/
theorem State.reset_sessionsAgree : State.reset.SessionsAgree :=
  State.reset.sessionsAgree_iff.2
    ⟨⟨State.reset_engineAgrees.quietStart, nofun⟩, State.reset_eq ▸ State.Settled.of_reset .starting []⟩

/-- There is no window to be exposed (R19, R24). -/
theorem State.reset_exposureAgrees : State.reset.ExposureAgrees where
  quietStart := State.reset_engineAgrees.quietStart
  sliceEngaged _ hslice := nomatch hslice
  owners _ hw := nomatch hw
  distinct := .nil
  exposed := rfl

/-- Settles O51: each invariant by the lemma that says it of reset. -/
theorem resetMeetsEveryInvariant : Obligations.ResetMeetsEveryInvariant :=
  ⟨rfl, State.reset_eq ▸ .of_reset .starting [], .nil, State.reset_linksBounded, State.reset_engineAgrees,
    State.reset_sessionsAgree, State.reset_eq ▸ .of_reset .starting [], State.reset_exposureAgrees,
    State.reset_eq ▸ .of_reset .starting [], State.reset_eq ▸ .of_reset .starting []⟩

/-! ## The stated values (R178, R184) -/

theorem State.profileLines_starting {s : State} (h : s.device = .starting) : s.profileLines = .reading := by
  rw [State.profileLines, h]

/-- The profile lines are idle while no load is under way. -/
theorem State.profileLines_idle {s : State} (h : s.device ≠ .starting) : s.profileLines = .idle := by
  unfold State.profileLines
  cases hd : s.device with
  | starting => exact absurd hd h
  | held => rfl
  | ready => rfl

/-- RDY is low before READY, and ATN is low with no session (R132, R175). -/
theorem State.reset_lines (p : Port) : State.reset.rdy p = false ∧ State.reset.atn p = false := by
  refine ⟨rfl, ?_⟩
  rw [State.atn, State.reset_port]
  rfl

/-- Settles O3: the values of `State.reset` block by block, the two reset rows, and the profile lines by the device state. -/
theorem resetLeavesTheStatedValues : Obligations.ResetLeavesTheStatedValues := by
  refine ⟨⟨rfl, rfl, rfl, rfl, rfl, State.reset_available, rfl, fun _ => rfl, State.reset_generationOf, rfl, rfl, rfl, rfl, rfl, rfl,
    rfl, rfl, rfl, rfl, rfl, rfl, rfl, rfl, State.reset_key, fun p => ?_⟩, fun s => ⟨rfl, fun h => ?_, fun h => ?_⟩,
    fun s => ⟨State.profileLines_starting, fun h => ?_⟩⟩
  · rw [State.reset_port]
    exact ⟨rfl, rfl, rfl, rfl, rfl, rfl, rfl, rfl, rfl, rfl, rfl, rfl, rfl, rfl, rfl, rfl, rfl, rfl, State.reset_lines p⟩
  · exact congrArg Host.Outcome.next (if_pos h)
  · exact congrArg Host.Outcome.next (if_neg h)
  · rw [State.profileLines_idle h]
    exact ⟨rfl, rfl⟩

end Sys2Proof.Machine
end

section
namespace Sys2Proof.Machine

-- One theorem is checked at a time, for the memory limit.
set_option Elab.async false

/-! The refusals of Table 6-2: which frame each port state answers with a NAK. -/

/-- The NAK of Table 6-2 to a frame of a kind on a port of a state, none where the frame is taken (R104, R106, R114, R119, R172,
R177). -/
def refusalOf : FrameKind → PortState → Option NakReason
  | .status, _ => none
  | _, .disabled => some .disabled
  | .attach, st => match st with | .detached => none | .closing => some .busy | _ => some .state
  | .detach, st => if st = .detached then some .state else none
  | .queued _, st => if st = .live then none else some .state
  | _, st => if st = .detached ∨ st = .closing then some .state else none

section Refusals

variable {s : State} {p : Port}

/-- A STARTING device refuses every frame (R179). -/
theorem State.takeFrame_starting (h : s.device = .starting) (kind : FrameKind) (flags tag : Byte) (payload : List Byte) :
    s.takeFrame p kind flags tag payload = s.nak p tag .starting := by
  unfold State.takeFrame State.answer
  rw [h]

/-- A READY device refuses a frame where Table 6-2 says so. -/
theorem State.takeFrame_refused (hd : s.device = .ready) {kind : FrameKind} {reason : NakReason}
    (h : refusalOf kind (s.port p).state = some reason) (flags tag : Byte) (payload : List Byte) :
    s.takeFrame p kind flags tag payload = s.nak p tag reason := by
  unfold State.takeFrame
  rw [State.answer_ready hd]
  cases kind with
  | status => cases h
  | attach => unfold State.takeAttach; cases hst : (s.port p).state <;> rw [hst] at h <;> cases h <;> rfl
  | detach => unfold State.takeDetach; cases hst : (s.port p).state <;> rw [hst] at h <;> cases h <;> rfl
  | renew => unfold State.takeRenew; cases hst : (s.port p).state <;> rw [hst] at h <;> cases h <;> rfl
  | readEvents => unfold State.takeReadEvents; cases hst : (s.port p).state <;> rw [hst] at h <;> cases h <;> rfl
  | abort => unfold State.takeAbort; cases hst : (s.port p).state <;> rw [hst] at h <;> cases h <;> rfl
  | queued k => unfold State.takeCommand; cases hst : (s.port p).state <;> rw [hst] at h <;> cases h <;> rfl

theorem State.takeDetach_closing (h : (s.port p).state = .closing) (tag : Byte) :
    s.takeDetach p tag = s.ack p tag (.detach (s.port p).epoch .closing) := by
  rw [State.takeDetach, h]

end Refusals

/-- Settles O6: the row of each frame is its `takeFrame`, which refuses it while STARTING and then as Table 6-2 says. -/
theorem framesAreRefusedByDeviceAndPortState : Obligations.FramesAreRefusedByDeviceAndPortState := by
  refine ⟨fun s p tag hd => ⟨?_, fun k flags payload hlen => ?_⟩, fun s p tag hd => ?_⟩
  · have hnak (kind : FrameKind) : (.next (s.takeFrame p kind 0 tag []) : Host.Outcome State Fault Refusal)
        = .next (s.nak p tag .starting) := congrArg _ (State.takeFrame_starting hd kind 0 tag [])
    simp only [List.forall_mem_cons]
    exact ⟨hnak .attach, hnak .renew, hnak .detach, hnak .readEvents, hnak .status, hnak .abort, nofun⟩
  · exact (exec_commandAdmission hlen).trans (congrArg Host.Outcome.next (State.takeFrame_starting hd (.queued k) flags tag payload))
  have hnak (kind : FrameKind) {st : PortState} {reason : NakReason} (hst : (s.port p).state = st)
      (h : refusalOf kind st = some reason) (flags : Byte) (payload : List Byte) :
      (.next (s.takeFrame p kind flags tag payload) : Host.Outcome State Fault Refusal) = .next (s.nak p tag reason) :=
    congrArg _ (State.takeFrame_refused hd (hst ▸ h) flags tag payload)
  have hcommand {st : PortState} {reason : NakReason} (hst : (s.port p).state = st)
      (h : ∀ k, refusalOf (.queued k) st = some reason) (k : CommandKind) (flags : Byte) (payload : List Byte)
      (hlen : payload.length ≤ Config.maxPayload) :
      exec (.commandAdmission p k flags tag payload) s = .next (s.nak p tag reason) :=
    (exec_commandAdmission hlen).trans (hnak (.queued k) hst (h k) flags payload)
  simp only [List.forall_mem_cons]
  refine ⟨fun h => ⟨⟨hnak .attach h rfl 0 [], hnak .renew h rfl 0 [], hnak .detach h rfl 0 [], hnak .readEvents h rfl 0 [],
      hnak .abort h rfl 0 [], nofun⟩, hcommand h fun _ => rfl⟩,
    fun h => ⟨⟨hnak .renew h rfl 0 [], hnak .detach h rfl 0 [], hnak .readEvents h rfl 0 [], hnak .abort h rfl 0 [], nofun⟩,
      hcommand h fun _ => rfl⟩,
    fun h => h.elim (fun h => hnak .attach h rfl 0 []) fun h => hnak .attach h rfl 0 [],
    fun h => hcommand h fun _ => rfl,
    fun h => ⟨hnak .attach h rfl 0 [], ⟨hnak .renew h rfl 0 [], hnak .readEvents h rfl 0 [], hnak .abort h rfl 0 [], nofun⟩, ?_,
      hcommand h fun _ => rfl⟩, fun r => rfl⟩
  refine congrArg Host.Outcome.next ?_
  rw [State.answer_ready hd, State.takeDetach_closing h]
  rfl

end Sys2Proof.Machine
end
